-- ==== Sys2Proof/Word.lean ====
section
/-! DEFINITION. Word: the bit-vector types the manual's registers, structures and point values are made of. -/
namespace Sys2Proof

/-- A 32-bit register or memory word (R3); binary32 values are carried as their bits (R4). -/
abbrev Word := BitVec 32
abbrev Byte := BitVec 8
abbrev Half := BitVec 16

/-- A stamp cycle:angle (scope, "Numbers and units"; R18): 32-bit cycle, 16-bit angle in angle counts. -/
structure Stamp where
  cycle : Word
  angle : Half
  deriving DecidableEq, Repr

end Sys2Proof
end

