-- ==== Sys2Proof/Syntax.lean ====
section
/-! DEFINITION. Syntax: the commands the block takes, one constructor per row of the opcode table, and the
operands they carry. A host command carries its descriptor; an event of the board, a wire or a clock carries what
the world supplies with it (a reading, a frame, a moment). -/
namespace Sys2Proof

/-- Control cluster A or B (R8, R282). -/
inductive Cluster | a | b
  deriving DecidableEq, Repr

/-- The three register paths with a snapshot of their own (R166). -/
inductive Path | lk | reg | towpath
  deriving DecidableEq, Repr

/-- The seven RTC fields (R167). -/
inductive RtcField | sec | min | hour | day | wday | month | year
  deriving DecidableEq, Repr

/-- What ended a PULL_IN (R219). -/
inductive PullEnd | ipk | tpk | motion
  deriving DecidableEq, Repr

/-- One output of the field die. -/
inductive OutRef
  | ao (n : Fin 16) | coil (ch : Fin 48) | tg (n : Fin 16) | fan (n : Fin 8)
  deriving DecidableEq, Repr

/-- Where pending changes are delivered: a completion ring, or a port whose notification queue has `room` (R73). -/
inductive Target
  | cq (n : Fin 32) | port (p : Fin 24) (room : Nat)
  deriving DecidableEq, Repr

/-- A loop: fabric loop ID, or fast-loop slot (R87). -/
structure LoopRef where
  fast : Bool
  idx : Nat
  deriving DecidableEq, Repr

/-- The causes of a host-interface reset other than a write of ENABLE (R330). -/
inductive HifCause | perst | hotReset | linkLoss | flr
  deriving DecidableEq, Repr

/-- The two register spaces: the set-up space of BAR0 and the block registers. -/
inductive Space | bar0 | block
  deriving DecidableEq, Repr

/-- Why a console line is not a command (R442, R443). -/
inductive BadLine | unknown | malformed | tooLong
  deriving DecidableEq, Repr

/-- Sources of the analogue test bus (R452). -/
inductive AtbSource
  | vref | field | vdrv | vsup | coil (ch : Fin 48) | tdF | ao (n : Fin 16) | ui (n : Fin 48) | mains
  deriving DecidableEq, Repr

/-- What a unit test found (R314, R316, R317): an SRAM march counts failing rows, the point engine test judges each
pipeline, a pair test of loop or zone engines judges one unit each. -/
inductive TestResult
  | pass | fail | rows (failing : Nat) | pipelines (p0 p1 : Bool)
  deriving DecidableEq, Repr

/-- The readings of a diagnostic cycle (R233, R234, R236): node voltages, whether the node stays low when sourced
alone and whether every node does, and the three on-state conditions. -/
structure DiagReading where
  chanMv : Nat
  bankMv : Nat
  stayLow : Bool
  allLow : Bool
  overFs : Bool
  bypass : Bool
  noCurrent : Bool
  deriving DecidableEq, Repr

/-- What the classifier recognises in a received frame (R263). -/
inductive FrameKind
  | arp | icmp | dhcp | neighbour | udp47808 | tcp502 | tlsSc | kwela | mstp | modbusRtu | other
  deriving DecidableEq, Repr

/-- A frame as the classifier sees it (R255, R263): kind, length with FCS, VLAN tag if any, stamp of its last bit, its
bytes, and whether it brings no request, reply or value that a command of its own carries (an MS/TP token, a TLS record of
the connection itself). -/
structure Frame where
  kind : FrameKind
  len : Nat
  vid : Option (BitVec 12)
  stamp : Stamp
  data : List Byte
  bare : Bool := false
  deriving DecidableEq, Repr

/-- A BACnet request as decoded by the protocol core (R261). Objects are named by KIND and object number; a write names
the client's device (R42). -/
inductive BacReq
  | read (objs : List (Nat × Nat)) (size : Nat)
  | writeValue (kind num : Nat) (value : Option Word) (prio dev : Nat)
  | writeOutOfService (kind num : Nat) (v : Bool) (dev : Nat)
  | subscribeCov (kind num : Nat) (binding : Nat)
  | cancelCov (kind num : Nat) (binding : Nat)
  | whoIs | whoHas (kind num : Nat)
  | timeSync (isLocal : Bool) (date time : Word)
  | readRange (log first count : Nat) (size : Nat)
  | ackAlarm (kind num toState : Nat) (stamp : Stamp)
  | eventInfo (size : Nat)
  | segmented
  | unsupported
  deriving DecidableEq, Repr

/-- A Modbus TCP server request (R262): unit, function code, first address, values written or count read. -/
structure ModReq where
  unit : Nat
  fc : Nat
  addr : Nat
  count : Nat
  values : List Half
  deriving DecidableEq, Repr

/-- One item the active device mirrors to the standby (R300), as register words. -/
inductive MirrorItem
  | point (id : Nat) (words : List Word)
  | prio (id : Nat) (words : List Word)
  | limit (id : Nat) (state : Nat)
  | loop (ref : LoopRef) (regs : List (Word × Nat)) (blocks : List (List Word))
  | zone (id : Nat) (words : List Word)
  deriving DecidableEq, Repr

/-- A Rope link frame (R298, R300, R307). -/
structure RopeFrame where
  crcOk : Bool
  low : Half
  high : Half
  role : Nat
  hash : List Byte
  stamp : Stamp
  /-- the count at which the frame was complete here (R35) -/
  arrived : Stamp
  lagMs : Nat
  items : List MirrorItem
  deriving DecidableEq, Repr

/-- What boot meets that the device does not hold in its own registers: whether the PUF reproduces the device key. -/
structure BootInfo where
  pufOk : Bool
  deriving DecidableEq, Repr

/-- An uncommitted record copy the power-up scan finds (R418). -/
structure ScanCopy where
  id : Nat
  seq : Nat
  payload : List Byte
  headerOk : Bool
  payloadOk : Bool
  deriving DecidableEq, Repr

/-- A descriptor as a command reads it (R344), with the ring that carried it and the buffer's bytes. -/
structure HostCmd where
  sq : Fin 32
  tag : Word
  target : Word
  count : Word
  p0 : Word
  p1 : Word
  p2 : Word
  p3 : Word
  irqNow : Bool
  fmt : Nat
  authSlot : Nat
  authSeq : Nat
  authTag : List Byte
  bufAddr : Nat
  bufLen : Nat
  buf : List Byte
  deriving DecidableEq, Repr

/-- The commands of the block, one per row of the opcode table. -/
inductive Instr
  /-- DIE_LINK_FRAME: A die-link frame arrives; a frame that fails its CRC-32C is resent and the retry counted, and a valid frame delivers the captures and heartbeats it carries. (R9) -/
  | dieLinkFrame (fromCore : Bool) (crcOk : Bool)
  /-- FIELD_DIE_LINK_LOSS: The field die receives no valid frame from the core die for 2 ms and drives every output to its configured fail-safe value. (R9) -/
  | fieldDieLinkLoss
  /-- CORE_DIE_LINK_LOSS: The core die receives no valid frame from the field die for 2 ms, marks the local points FAULT and carries the angle from the 25 MHz reference. (R10) -/
  | coreDieLinkLoss
  /-- DIE_LINK_RETURN: The die link returns; the core die slews its angle onto the field die's angle and the point engine starts a full refresh. (R11) -/
  | dieLinkReturn
  /-- CROSSING_QUALIFIED: A mains zero crossing holds for 200 µs, is dated at its edge and feeds the PLL or the state machine. (R15) -/
  | crossingQualified (rising : Bool) (edge : Half) (hz : Word)
  /-- CROSSING_MISSED: No crossing dated inside an expected window has qualified 200 µs after the window closes, so a miss is counted and the state may change. (R16) -/
  | crossingMissed
  /-- MS_PRESENT_LAPSE: 11.31 ms pass after the last in-range crossing, so MS_PRESENT clears and the mains points turn STALE. (R17) -/
  | msPresentLapse
  /-- CYCLE_BOUNDARY: The angle passes from 65,535 to 0; the cycle counter increments and the fabric-tick work of the cycle runs. (R18) -/
  | cycleBoundary (rms : Word)
  /-- HOLDOVER_TIMEOUT: 10 s of HOLDOVER without entering RELOCKING pass, so the timebase enters LOST. (R20) -/
  | holdoverTimeout
  /-- TB_CTRL_WRITE: A write to TB_CTRL sets the mode, the fallback, PFW_EN and the cycle alignment sources. (R20) -/
  | tbCtrlWrite (v : Word)
  /-- TB_PHASE_OFS_WRITE: A write to TB_PHASE_OFS starts a slew of the angle to the new offset. (R21) -/
  | tbPhaseOfsWrite (v : Word)
  /-- TB_ANGLE_READ: A read of TB_ANGLE latches the cycle into TB_CYCLE_SNAP. (R18) -/
  | tbAngleRead
  /-- REF_CLOCK_STOP: The 25 MHz reference stops; the core die stops and the timebase holds angle and cycle in LOST. (R437) -/
  | refClockStop
  /-- REF_CLOCK_RESTART: The 25 MHz reference runs again, and the timebase restarts from the angle and cycle it held. (R20) -/
  | refClockRestart
  /-- ANGLE_EVENT_DISPATCH: The angle passes an occurrence of an enabled angle event entry, which is dispatched in index order to its action. (R30) -/
  | angleEventDispatch (angle : Half)
  /-- POINT_OPERATION: The point engine takes a queued operation, computes it in both pipelines and commits it only when they agree. (R64) -/
  | pointOperation (first : Bool) (again : Bool)
  /-- LONE_PIPELINE_TEST: Each 1 s of run time with one pipeline in service, the Lock-keeper starts the signature test of the lone pipeline. (R65) -/
  | lonePipelineTest
  /-- MIN_TIME_LOCK_EXPIRY: A minimum-time lock passes its deadline, and the priority array is resolved again. (R60) -/
  | minTimeLockExpiry (id : Nat)
  /-- STALE_TIMEOUT: No write reaches a point for STALE_TIMEOUT seconds, so its QUALITY becomes STALE. (R78) -/
  | staleTimeout (id : Nat)
  /-- ALARM_DELAY_EXPIRY: A pending limit condition has held to PEND_SINCE plus its delay, so the block changes state. (R77) -/
  | alarmDelayExpiry (id : Nat)
  /-- PENDING_CHANGE_DELIVERY: Room appears at a target, so pending changes, queued alarms and waiting events are delivered in order. (R73) -/
  | pendingChangeDelivery (target : Target)
  /-- TREND_PERIODIC_SAMPLE: A periodic trend log's period count comes round, and a sample stamped c:0 is captured. (R81) -/
  | trendPeriodicSample (log : Nat)
  /-- FABRIC_LOOP_TICK: A fabric loop's period comes round at c:0, and the loop is queued for dispatch. (R91) -/
  | fabricLoopTick (loop : Nat)
  /-- LOOP_EVALUATION_START: A due loop gets a free engine or engine pair, and its snapshot is taken. (R97) -/
  | loopEvaluationStart (ref : LoopRef) (engine : Fin 4)
  /-- LOOP_EVALUATION_END: An evaluation completes, and a solo loop issues its WRITE blocks. (R98) -/
  | loopEvaluationEnd (ref : LoopRef) (on : Cluster) (upset : Option Word)
  /-- PEER_RESULT_ARRIVAL: The peer cluster's roped results arrive and are compared, and the owner applies its writes. (R101) -/
  | peerResultArrival (ref : LoopRef) (stamp : Stamp)
  /-- PEER_RESULT_TIMEOUT: The peer's results do not arrive within 1 ms, so the evaluation counts MISSING. (R103) -/
  | peerResultTimeout (ref : LoopRef) (on : Cluster)
  /-- LOOP_OVERRUN: A due loop has not started by the next cycle start, so OVERRUN is counted and the tick merges. (R107) -/
  | loopOverrun (ref : LoopRef)
  /-- ZONE_STEP: A due zone step runs its snapshot, cross-check, identification, forecast and writes. (R143) -/
  | zoneStep (zone : Nat) (upset : Bool)
  /-- ZONE_SKIPPED: A step has not started by the zone's next due second, so it merges and is counted. (R160) -/
  | zoneSkipped (zone : Nat)
  /-- RTC_INCREMENT: The RTC counts one second by its increment rules. (R170) -/
  | rtcIncrement
  /-- RTC_HALT: Writing HALT = 1 freezes the prescaler and every field. (R168) -/
  | rtcHalt
  /-- RTC_RELEASE: Writing HALT = 0 restarts the prescaler, fires or disarms crossed alarms and re-evaluates every schedule. (R175) -/
  | rtcRelease
  /-- RTC_FIELD_WRITE: A write to an RTC field is applied while HALT = 1, or ignored with WRERR otherwise. (R167) -/
  | rtcFieldWrite (path : Path) (field : RtcField) (v : Word)
  /-- RTC_SUBSEC_READ: A read of RTC_SUBSEC latches the fields into the snapshot of the reading path. (R166) -/
  | rtcSubsecRead (path : Path)
  /-- RTC_WAKE_WRITE: A write to RTC_WAKE restarts or stops the wake interval. (R177) -/
  | rtcWakeWrite (v : Word)
  /-- WAKE: A wake interval ends, and WAKE is set, together with EVENT when it is armed. (R177) -/
  | wake
  /-- BK_BYTE31_WRITE: A write to BK_BYTE31 drives PWRON, or releases it by clearing EVENT. (R178) -/
  | bkByte31Write (v : Word)
  /-- MAINS_DISC_WINDOW_END: A discipline window of 86,400 RTC seconds ends, and RTC_TRIM is corrected from the mains count. (R180) -/
  | mainsDiscWindowEnd
  /-- BACKUP_SUPPLY_SWITCH: VDD_AON crosses its thresholds, and the backup domain switches between VDD_AON and VBAK. (R163) -/
  | backupSupplySwitch (aonMv : Nat) (vbakMv : Nat)
  /-- BACKUP_DOMAIN_POWER_UP: VDD_AON or VBAK returns after both were absent, and the backup domain takes its Reset values. (R164) -/
  | backupDomainPowerUp
  /-- SCHEDULE_EVALUATION: At the first fabric tick after UTC second 0, every loaded schedule is evaluated and changed values are written. (R185) -/
  | scheduleEvaluation
  /-- OSCILLATOR_32K_STOP: The 32.768 kHz oscillator stops, and the RTC stops with it. (R438) -/
  | oscillator32kStop
  /-- SINC_WORD: The filter chain emits a word, valid or settling, into the slot's result register. (R198) -/
  | sincWord (adc : Fin 4) (raw : Int) (clip : Option Bool) (stamp : Stamp)
  /-- ADC_PWM_TRIGGER: DELAY after a bank PWM period start, a trigger starts or pends a sequence on ADC2 or ADC3. (R203) -/
  | adcPwmTrigger (bank : Fin 8)
  /-- ADC_TIMER_TRIGGER: The periodic ADC timer expires and starts or pends a sequence. (R203) -/
  | adcTimerTrigger (adc : Fin 4)
  /-- URGENT_CONVERSION_END: An urgent conversion lands; the requester is served and the aborted slot restarts with full settling. (R207) -/
  | urgentConversionEnd (adc : Fin 4) (raw : Int) (clip : Option Bool) (stamp : Stamp)
  /-- REF_CHECK: The 10 ms comparison of the external reference judges it good or bad, and REF_FAULT is set when it goes bad. (R196) -/
  | refCheck (vext : Word) (vfield : Word)
  /-- REF_READY: 2 ms after field-die power-up the internal reference is ready. (R196) -/
  | refReady
  /-- RESULT_REGISTER_READ: A 32-bit read of a result register returns OVR and then clears it. (R211) -/
  | resultRegisterRead (adc : Fin 4) (slot : Fin 64)
  /-- RESULT_HALF_READ: A read of bits 15:0 over the 16-bit path latches bits 31:16 for the read at address + 2. (R212) -/
  | resultHalfRead (adc : Fin 4) (slot : Fin 64) (high : Bool)
  /-- UI_LEVEL_ACCEPTED: A UI comparator level holds through the debounce and is accepted, which writes the contact point or counts a pulse. (R194) -/
  | uiLevelAccepted (ui : Fin 48) (closed : Bool) (stamp : Stamp)
  /-- CAL_STAGE_END: A calibration gain stage ends, and the new values take effect after the converter's last stage. (R215) -/
  | calStageEnd (adc : Fin 4) (zero : Int) (ref : Int)
  /-- COIL_WRITE_DELIVERY: A delivered write reaches a coil bank, passes check, claim and envelope, and acts on the channel. (R222) -/
  | coilWriteDelivery (ch : Fin 48)
  /-- COIL_PWM_PERIOD: At each PWM period the hold-current loop computes the new duty. (R220) -/
  | coilPwmPeriod (ch : Fin 48) (imeas : Word) (samples : List Word)
  /-- PULL_IN_END: PULL_IN ends at IPK, at TPK or at motion; the channel enters HOLD and the next deferred pull-in starts. (R219) -/
  | pullInEnd (ch : Fin 48) (why : PullEnd)
  /-- MOTION_DIP: The detector finds the back-EMF dip, and the motion time point is written. (R227) -/
  | motionDip (ch : Fin 48) (codes : List Nat)
  /-- RELEASE_END: The coil current falls below 2 % of FS, and the channel enters OFF. (R221) -/
  | releaseEnd (ch : Fin 48)
  /-- DEFER_TIMEOUT: A deferred pull-in reaches DEFER_MAX and is withdrawn. (R226) -/
  | deferTimeout (ch : Fin 48)
  /-- DUTY_SUBWINDOW_END: A sub-window of the duty and I²t window ends, and the oldest sub-window leaves the sums. (R231) -/
  | dutySubwindowEnd (ch : Fin 48)
  /-- OFF_STATE_TEST: The once-per-second off-state test reads the bank and channel nodes and latches faults it finds. (R233) -/
  | offStateTest (bank : Fin 8) (bankMv : Nat) (nodesMv : List Nat) (stayLow : List Bool)
  /-- SHORT_SUP_ON: The channel shunt current exceeds FS; hardware turns the low side off and the channel enters FAULT. (R234) -/
  | shortSupOn (ch : Fin 48)
  /-- SHORT_GND_ON: Coil current bypasses the channel shunt for 1 ms, and the channel enters FAULT. (R234) -/
  | shortGndOn (ch : Fin 48)
  /-- OPEN_ON: Both senses stay near zero for 5 ms while the channel is on, and it enters FAULT. (R234) -/
  | openOn (ch : Fin 48)
  /-- BANK_OC: The bank current stays above ILIM for 100 µs; the high side turns off and the channels turn off. (R234) -/
  | bankOc (bank : Fin 8)
  /-- BANK_SUPPLY: The bank node has not reached the supply 100 µs after the high side turns on. (R234) -/
  | bankSupply (bank : Fin 8)
  /-- DIAGNOSTIC_CYCLE_END: A 10 ms diagnostic cycle ends, and its verdict clears or latches the channel's fault. (R236) -/
  | diagnosticCycleEnd (ch : Fin 48) (r : DiagReading)
  /-- VDRV_UNDERVOLTAGE: VDRV falls below 9.0 V, so every coil pre-driver turns off with code BANK_SUPPLY. (R431) -/
  | vdrvUndervoltage
  /-- AO_WRITE_DELIVERY: A delivered write reaches an AO, which limits it to the span and drives the code. (R243) -/
  | aoWriteDelivery (n : Fin 16)
  /-- AO_SHORT: An AO spends 10 ms in current limit and sets SHORT. (R244) -/
  | aoShort (n : Fin 16)
  /-- TG_WRITE_DELIVERY: A delivered firing angle reaches a TG and is held for the next zero crossing. (R246) -/
  | tgWriteDelivery (n : Fin 16)
  /-- TG_ZERO_CROSSING: At a load zero crossing the field die rewrites the TG entry, or runs the zero-cross accumulator. (R246) -/
  | tgZeroCrossing (n : Fin 16) (rising : Bool)
  /-- FAN_WRITE_DELIVERY: A delivered fan command sets the PWM duty. (R249) -/
  | fanWriteDelivery (n : Fin 8)
  /-- TACH_EDGE: A falling tach edge more than 200 µs after the last one is counted. (R250) -/
  | tachEdge (n : Fin 8) (dtUs : Nat)
  /-- FAN_STALL: No tach edge comes for STALL seconds at non-zero duty, so the speed point is written FAULT. (R250) -/
  | fanStall (n : Fin 8)
  /-- SENSOR_POLL_DUE: A sensor template's poll period comes round, and the bus starts the trigger or the read. (R252) -/
  | sensorPollDue (bus : Fin 4) (sensor : Fin 16) (late : Bool) (sdaLow : Bool)
  /-- TRIGGER_WAIT_END: The WAIT after a sensor trigger ends, and the read transaction starts. (R252) -/
  | triggerWaitEnd (bus : Fin 4) (sensor : Fin 16) (sdaLow : Bool)
  /-- SENSOR_POLL_READ_END: A sensor read completes or fails; fields are converted and written, or the failure is counted. (R253) -/
  | sensorPollReadEnd (bus : Fin 4) (sensor : Fin 16) (bytes : Option (List Byte)) (stamp : Stamp)
  /-- POLL_RETRY: 10 ms after a failed poll, the poll is retried once. (R253) -/
  | pollRetry (bus : Fin 4) (sensor : Fin 16) (sdaLow : Bool)
  /-- CLOCK_STRETCH_TIMEOUT: A clock stretch exceeds STRETCH ms and fails the poll. (R252) -/
  | clockStretchTimeout (bus : Fin 4) (sensor : Fin 16)
  /-- ENVELOPE_SLEW_UPDATE: At each rate-limit update, the applied value moves towards its target by at most RATE·Δt. (R384) -/
  | envelopeSlewUpdate (out : OutRef) (dtUs : Nat)
  /-- FRAME_RECEIVED: The classifier assigns a received frame to a core queue or a raw queue, or drops it. (R263) -/
  | frameReceived (port : Fin 24) (frame : Frame)
  /-- RAW_FRAME_POST: A queued raw frame finds a free buffer and room in RAW_CQ, and is copied and posted. (R264) -/
  | rawFramePost (port : Fin 24)
  /-- BACNET_REQUEST: A protocol core serves a BACnet request taken from its queue. (R261) -/
  | bacnetRequest (port : Fin 24) (req : BacReq)
  /-- MODBUS_SERVER_REQUEST: A Modbus TCP server request is answered or refused with an exception. (R262) -/
  | modbusServerRequest (port : Fin 24) (req : ModReq)
  /-- MODBUS_POLL_DUE: A MODBUS_POLL entry's period comes round, and its register is read. (R259) -/
  | modbusPollDue (entry : Nat)
  /-- MODBUS_POLL_REPLY: A poll reply arrives and is decoded into its point. (R259) -/
  | modbusPollReply (entry : Nat) (regs : List Half) (stamp : Stamp)
  /-- MODBUS_RESPONSE_TIMEOUT: A poll has no answer within the response timeout, so its point is written FAULT. (R262) -/
  | modbusResponseTimeout (entry : Nat)
  /-- DHCP_RENEW: Half the lease time passes, and the IP stack renews its DHCP lease. (R256) -/
  | dhcpRenew (port : Fin 24) (lease : Option Word)
  /-- KWELA_BEACON_TIMER: 100 ms pass, and a BEACON is queued on each open Kwela segment. (R273) -/
  | kwelaBeaconTimer
  /-- KWELA_TRANSMIT: After its access gap, the device sends its next queued Kwela frame and reads it back. (R267) -/
  | kwelaTransmit (trunk : Fin 16) (collision : Bool)
  /-- HELLO: A field device's HELLO arrives, is entered in the device table or refused, and is answered. (R272) -/
  | hello (trunk : Fin 16) (bytes : List Byte) (stamp : Stamp)
  /-- VALUE: A VALUE frame arrives; its records are passed to the point engine or refused, and the frame is acknowledged. (R276) -/
  | value (trunk : Fin 16) (bytes : List Byte) (stamp : Stamp)
  /-- ACK: An ACK arrives in time and ends its frame's retry timer. (R280) -/
  | ack (trunk : Fin 16) (bytes : List Byte) (stamp : Stamp)
  /-- DIAG: A DIAG arrives; CHECK_FAIL starts a core test and CLAIM_LOW triggers a BEACON and a resend. (R278) -/
  | diag (trunk : Fin 16) (bytes : List Byte) (stamp : Stamp)
  /-- BEACON: A twin's BEACON arrives, is used for cycle alignment and is taken as a witness beacon. (R273) -/
  | beacon (trunk : Fin 16) (bytes : List Byte) (stamp : Stamp)
  /-- COMMAND: The delivered output values of a device in one fabric tick are sent as one COMMAND through the transmit gate. (R277) -/
  | command (trunk : Fin 16) (addr : Nat)
  /-- ACK_WAIT_EXPIRY: ACK_WAIT passes unanswered, so the frame is resent or the device enters SILENT. (R280) -/
  | ackWaitExpiry (trunk : Fin 16) (addr : Nat)
  /-- SILENT_HELLO: Each second a SILENT device is sent a HELLO. (R280) -/
  | silentHello (trunk : Fin 16) (addr : Nat)
  /-- SCAN_SLOT_END: A 75 ms scan slot ends, and the next broadcast HELLO is sent. (R281) -/
  | scanSlotEnd (trunk : Fin 16) (overrun : Bool)
  /-- HEARTBEAT: A cluster heartbeat arrives with its claim, and the owner may change. (R286) -/
  | heartbeat (cluster : Cluster) (seq : Half) (stamp : Stamp)
  /-- HEARTBEAT_MISS: 1.1 ms pass without a heartbeat, so a miss is counted, and at the third the claim is withdrawn. (R286) -/
  | heartbeatMiss (cluster : Cluster)
  /-- REFRESH_LATE: A stage is still HELD 4 ms after an owner change, so REFRESH_LATE is set and logged. (R293) -/
  | refreshLate
  /-- BELAY_START_WAIT_END: The 10 ms start wait after the first heartbeat ends, and the first owner is chosen. (R306) -/
  | belayStartWaitEnd
  /-- ROPE_LINK_FRAME: A Rope link frame arrives with the twin's claims, role and hash, and pair roles are judged. (R298) -/
  | ropeLinkFrame (frame : RopeFrame)
  /-- ROPE_LINK_SILENT: 10 ms pass without a valid link frame, and the link is declared silent. (R298) -/
  | ropeLinkSilent
  /-- MIRROR_INTERVAL: A 10 ms mirror interval ends, and the active device sends its changes to the standby. (R300) -/
  | mirrorInterval
  /-- WITNESS_TIMEOUT: 1 s passes without link frames or witness beacons from the twin. (R303) -/
  | witnessTimeout
  /-- PAIR_SEARCH_TIMEOUT: A SEARCHING device hears nothing from its twin for 1 s and becomes ACTIVE. (R299) -/
  | pairSearchTimeout
  /-- SCRUB: The background scrub reads DRAM words, correcting and counting ECC errors. (R309) -/
  | scrub (unit : Word) (double : Option (Fin 512))
  /-- SELF_TEST_COMPLETE: A unit test ends with pass or fail; the transient is counted or the unit is treated as lasting. (R316) -/
  | selfTestComplete (unit : Word) (result : TestResult)
  /-- SELF_TEST_TIMEOUT: A test has not ended within four times its stated time and counts as failed. (R314) -/
  | selfTestTimeout (unit : Word)
  /-- HIF_VERSIONS_HOST_WRITE: The host writes its revisions, and HIF_AGREED is recomputed. (R323) -/
  | hifVersionsHostWrite (v : Word)
  /-- HIF_ENABLE: Writing ENABLE = 1 checks the whole set-up and starts the host interface, or records the first error. (R327) -/
  | hifEnable (v : Word)
  /-- HIF_DISABLE: Writing ENABLE from 1 to 0 causes a host-interface reset. (R330) -/
  | hifDisable (v : Word)
  /-- HIF_RESET_REQUEST: A write of HIF_CTRL.RESET resets the device when KEY and the configuration image allow it, and is logged otherwise. (R331) -/
  | hifResetRequest (v : Word)
  /-- HOST_INTERFACE_RESET: PERST#, a hot reset, link loss or FLR stops host memory access and resets the host interface state. (R330) -/
  | hostInterfaceReset (cause : HifCause)
  /-- RING_EN_WRITE: Setting or clearing EN on a ring checks or stops that ring. (R328) -/
  | ringEnWrite (cq : Bool) (n : Fin 32) (v : Word)
  /-- WINDOW_EN_WRITE: Setting or clearing EN on a DMA window checks or removes that window. (R328) -/
  | windowEnWrite (n : Fin 64) (v : Word)
  /-- SLUICE_CLOSE: Writing CLOSE = 1 stops every further event write and all raw forwarding. (R332) -/
  | sluiceClose
  /-- SLUICE_OPEN: Writing CLOSE = 0 reopens the Sluice, and delivery resumes. (R332) -/
  | sluiceOpen
  /-- BAR0_BAD_ACCESS: An unsupported BAR0 access size is ignored with WRERR, or read as all ones. (R322) -/
  | bar0BadAccess (write : Bool)
  /-- REGISTER_WRITE: A write to a register that has no step of its own updates its fields by their access codes. (R6) -/
  | registerWrite (space : Space) (addr : Word) (v : Word) (path : Path)
  /-- DOORBELL_POLL: Every DB_POLL µs the device reads the doorbell page, accepts valid indices and fetches descriptors. (R343) -/
  | doorbellPoll (stores : List (Nat × List Byte))
  /-- AUTH_LOCKOUT_END: The 10 s authorisation lockout ends. (R380) -/
  | authLockoutEnd
  /-- STATUS_PAGE_HEARTBEAT: SP_HB passes, or the contents change, so the status page is written and its heartbeat advances. (R325) -/
  | statusPageHeartbeat
  /-- CQ_COALESCE_TIMEOUT: TIME µs pass since the first counted entry, and the CQ's MSI-X vector is signalled. (R352) -/
  | cqCoalesceTimeout (cq : Fin 32)
  /-- FENCE_COMPLETE: Every command fetched before a FENCE has completed, so the FENCE completes and its ring resumes. (R348) -/
  | fenceComplete (sq : Fin 32)
  /-- NOP: A command that does nothing and completes OK. (R360) -/
  | nop (c : HostCmd)
  /-- NEGOTIATE: Sets the host interface revision in force on one SQ. (R323) -/
  | negotiate (c : HostCmd)
  /-- QUENCH: Stops event posting to the named CQs and quenches the named ports. (R353) -/
  | quench (c : HostCmd)
  /-- UNQUENCH: Lifts the quench from the named CQs and ports. (R353) -/
  | unquench (c : HostCmd)
  /-- SUSPEND: Asks a running long operation to stop at its next checkpoint. (R370) -/
  | suspend (c : HostCmd)
  /-- RESUME: Restarts a suspended long operation from its checkpoint. (R370) -/
  | resume (c : HostCmd)
  /-- CANCEL: Ends a long operation at its next checkpoint, or at once when suspended. (R370) -/
  | cancel (c : HostCmd)
  /-- OP_STATUS: Reports a long operation's state, or collects its final result and frees the slot. (R370) -/
  | opStatus (c : HostCmd)
  /-- FENCE: Holds its ring until every earlier-fetched command has completed. (R348) -/
  | fence (c : HostCmd)
  /-- POINT_DEFINE: Defines or redefines a point from a point definition. (R363) -/
  | pointDefine (c : HostCmd)
  /-- POINT_READ: Returns a point's value, status, check and stamp. (R362) -/
  | pointRead (c : HostCmd)
  /-- POINT_WRITE: Writes a point at a priority and reports what reached the output. (R366) -/
  | pointWrite (c : HostCmd)
  /-- POINT_RELINQUISH: Relinquishes one priority level of a commandable point and resolves it. (R58) -/
  | pointRelinquish (c : HostCmd)
  /-- POINT_READ_MANY: Reads a list of points into a host array. (R362) -/
  | pointReadMany (c : HostCmd)
  /-- POINT_SUBSCRIBE: Creates a CQ, PORT or LOOP subscription and delivers the current state. (R68) -/
  | pointSubscribe (c : HostCmd)
  /-- POINT_UNSUBSCRIBE: Removes a subscription with any pending change it holds. (R69) -/
  | pointUnsubscribe (c : HostCmd)
  /-- POINT_LIMITS: Sets, replaces or deletes a limit block, or acknowledges an alarm. (R468) -/
  | pointLimits (c : HostCmd)
  /-- POINT_IMPORT: A long operation that defines many points from a buffer. (R362) -/
  | pointImport (c : HostCmd)
  /-- POINT_EXPORT: A long operation that copies point records to the host. (R362) -/
  | pointExport (c : HostCmd)
  /-- TREND_DEFINE: Creates, redefines or deletes a trend log. (R83) -/
  | trendDefine (c : HostCmd)
  /-- TREND_READ: Returns samples of a trend log. (R362) -/
  | trendRead (c : HostCmd)
  /-- TREND_EXPORT: A long operation that copies logs to the host or to the trend archive. (R372) -/
  | trendExport (c : HostCmd)
  /-- LOOP_LOAD: Checks and loads a loop program image. (R90) -/
  | loopLoad (c : HostCmd)
  /-- LOOP_START: Admits and starts a loaded or stopped loop. (R110) -/
  | loopStart (c : HostCmd)
  /-- LOOP_STOP: Stops a loop at the end of its current evaluation and frees its reservation. (R111) -/
  | loopStop (c : HostCmd)
  /-- LOOP_READ_STATE: Returns a loop's state, counts, stamps and registers. (R110) -/
  | loopReadState (c : HostCmd)
  /-- LOOP_TUNE: Changes block parameters and constants before the next evaluation. (R112) -/
  | loopTune (c : HostCmd)
  /-- LOOP_SWAP: Checks a new image and places the loop in SWAP_PENDING for the swap tick. (R113) -/
  | loopSwap (c : HostCmd)
  /-- ZONE_DEFINE: Defines a zone record or changes its configuration. (R140) -/
  | zoneDefine (c : HostCmd)
  /-- ZONE_READ: Returns one zone quantity and, optionally, the record. (R364) -/
  | zoneRead (c : HostCmd)
  /-- ZONE_NEIGHBOURS: Rewrites a zone's neighbour list. (R140) -/
  | zoneNeighbours (c : HostCmd)
  /-- ZONE_WEATHER: Loads a weather site table. (R153) -/
  | zoneWeather (c : HostCmd)
  /-- ZONE_FORECAST: Returns a zone's 48-hour trajectory and its optimal times. (R154) -/
  | zoneForecast (c : HostCmd)
  /-- ZONE_FIT: A long operation that refits θ and ρ for a range of zones. (R162) -/
  | zoneFit (c : HostCmd)
  /-- RTC_GET: Returns wall time, date, time and RTC status. (R364) -/
  | rtcGet (c : HostCmd)
  /-- RTC_SET: Halts the RTC, writes all seven fields and releases it. (R168) -/
  | rtcSet (c : HostCmd)
  /-- RTC_TRIM: Writes RTC_TRIM, or fails while mains discipline is on. (R364) -/
  | rtcTrim (c : HostCmd)
  /-- SCHED_LOAD: Checks and loads a schedule program. (R183) -/
  | schedLoad (c : HostCmd)
  /-- SCHED_READ: Returns a schedule's present value, next value or minutes to it. (R136) -/
  | schedRead (c : HostCmd)
  /-- CAL_LOAD: Loads a calendar of 64 entries. (R182) -/
  | calLoad (c : HostCmd)
  /-- LOCALTIME_LOAD: Loads local-time rules. (R181) -/
  | localtimeLoad (c : HostCmd)
  /-- ANGLE_EVENT_SET: Writes or releases an angle event entry for the host. (R31) -/
  | angleEventSet (c : HostCmd)
  /-- IO_CONFIG: Configures or releases an I/O resource and claims it in the resource table. (R214) -/
  | ioConfig (c : HostCmd)
  /-- IO_READ_NOW: Requests an urgent conversion of a UI and returns its value. (R209) -/
  | ioReadNow (c : HostCmd)
  /-- ADC_CAL: A long operation that calibrates the named converters. (R215) -/
  | adcCal (c : HostCmd)
  /-- COIL_CMD: Writes a coil command point and completes when the channel's request resolves. (R224) -/
  | coilCmd (c : HostCmd)
  /-- COIL_DIAG: Runs a diagnostic cycle on one channel. (R236) -/
  | coilDiag (c : HostCmd)
  /-- AO_SET: Writes an AO command point. (R366) -/
  | aoSet (c : HostCmd)
  /-- TG_SET: Writes a TG firing-angle point. (R366) -/
  | tgSet (c : HostCmd)
  /-- FAN_SET: Writes a fan command point. (R366) -/
  | fanSet (c : HostCmd)
  /-- PORT_OPEN: Opens a port from its image and loads the port map. (R257) -/
  | portOpen (c : HostCmd)
  /-- PORT_CLOSE: Closes a port and releases its resources. (R365) -/
  | portClose (c : HostCmd)
  /-- PORT_SEND: Sends one raw frame from host memory on an IP port. (R264) -/
  | portSend (c : HostCmd)
  /-- PORT_QUENCH: Sets a port's forwarding and non-essential transmit switches. (R265) -/
  | portQuench (c : HostCmd)
  /-- PORT_STATS: Returns a port's status and counts. (R365) -/
  | portStats (c : HostCmd)
  /-- KWELA_SCAN: A long operation that scans a trunk in 256 HELLO slots. (R281) -/
  | kwelaScan (c : HostCmd)
  /-- NVM_READ: Returns the chosen committed copy of a record. (R417) -/
  | nvmRead (c : HostCmd)
  /-- NVM_WRITE: Writes a record copy and completes when it is committed. (R415) -/
  | nvmWrite (c : HostCmd)
  /-- NVM_COMPACT: A long operation that runs a compaction pass. (R427) -/
  | nvmCompact (c : HostCmd)
  /-- NVM_COUNTER_READ: Returns a wear counter. (R424) -/
  | nvmCounterRead (c : HostCmd)
  /-- NVM_COUNTER_INC: Increments a user wear counter. (R426) -/
  | nvmCounterInc (c : HostCmd)
  /-- REG_READ: Reads a block register. (R360) -/
  | regRead (c : HostCmd)
  /-- REG_WRITE: A guarded write of a block register under a mask. (R360) -/
  | regWrite (c : HostCmd)
  /-- SELF_TEST: A long operation that tests one unit or every unit in turn. (R360) -/
  | selfTest (c : HostCmd)
  /-- LOG_READ: Returns entries of the Cairn log or of the RAM log. (R399) -/
  | logRead (c : HostCmd)
  /-- HEALTH_READ: Returns the health buffer. (R411) -/
  | healthRead (c : HostCmd)
  /-- CLAIM_READ: Returns the claims and the Belay status. (R360) -/
  | claimRead (c : HostCmd)
  /-- MEMPLAN: Accepts the memory plan and lays out the DRAM regions. (R63) -/
  | memplan (c : HostCmd)
  /-- PAIR_CONFIG: Configures pair mode. (R297) -/
  | pairConfig (c : HostCmd)
  /-- SESSION_OPEN: Opens an authorised session by ECDH. (R381) -/
  | sessionOpen (c : HostCmd)
  /-- SESSION_CLOSE: Closes a session. (R381) -/
  | sessionClose (c : HostCmd)
  /-- KEY_ENROLL: Writes a key-vault object: an operator key, the OEM key, the technician secret, SC material, or disables debug. (R377) -/
  | keyEnroll (c : HostCmd)
  /-- ENVELOPE_SET: Sets or deletes a point's envelope. (R382) -/
  | envelopeSet (c : HostCmd)
  /-- ATTEST: Returns a signed attestation statement or the certificate chain. (R374) -/
  | attest (c : HostCmd)
  /-- IMAGE_STAGE: A long operation that writes and validates a bundle in the inactive slot. (R387) -/
  | imageStage (c : HostCmd)
  /-- IMAGE_ACTIVATE: Selects the next boot slot, or confirms the TRIAL slot. (R387) -/
  | imageActivate (c : HostCmd)
  /-- LONGOP_CHECKPOINT: A long operation reaches a checkpoint, where SUSPEND, CANCEL or its final completion take effect. (R369) -/
  | longopCheckpoint (slot : Fin 16)
  /-- PROGRESS_EVENT: A running long operation posts its progress event each 1 s. (R371) -/
  | progressEvent (slot : Fin 16)
  /-- SESSION_IDLE_EXPIRY: A session passes its idle limit and closes. (R381) -/
  | sessionIdleExpiry (slot : Fin 8)
  /-- TRIAL_CONFIRMATION: 300 s of run time pass on a TRIAL slot, which becomes CONFIRMED and raises its counters. (R388) -/
  | trialConfirmation
  /-- BOOT: After a reset, the boot ROM and the Lock-keeper validate images, apply configuration and start the device. (R388) -/
  | boot (b : BootInfo)
  /-- HOUSEKEEPING_ROUND: Every 10 ms the Lock-keeper reads sensors and rails, sets the throttle, writes health points and kicks its watchdog. (R395) -/
  | housekeepingRound (temps : List (Option Word)) (rails : List Word) (rtcStopped : Bool)
  /-- THROTTLE_FALL: 100 ms pass with T below 110 °C, and the level falls one step. (R406) -/
  | throttleFall
  /-- THROTTLE_HOLD_END: The 1 s hold after a hottest-sensor failure ends. (R406) -/
  | throttleHoldEnd
  /-- RAIL_OUT: A rail lies outside its window for 3 rounds and is logged. (R395) -/
  | railOut (rail : Fin 12)
  /-- SENSOR_FAILED: A die sensor differs for 3 rounds, is declared failed and is substituted. (R403) -/
  | sensorFailed (sensor : Fin 16)
  /-- TD_SUSPECT: TD_F differs from the TS_F mean for 3 rounds, so TD_SUSPECT is set. (R404) -/
  | tdSuspect
  /-- WATCHDOG: The Lock-keeper watchdog is not kicked for 100 ms, and the device resets. (R396) -/
  | watchdog
  /-- PROTOCOL_CORE_SILENT: A protocol core is silent for 5 ms, so its ports are held and it is tested. (R397) -/
  | protocolCoreSilent (core : Fin 16)
  /-- HOST_ABSENT: HOST_HB has not changed for LK_HOST.TIMEOUT, so HOST_ABSENT is set and logged. (R397) -/
  | hostAbsent
  /-- LOG_FLUSH: Pending Cairn log entries are written to NVM within 1 s of being made. (R399) -/
  | logFlush
  /-- PFI_ASSERT: PFI stays below 1.200 V for 5 µs, and a power-fail warning comes into force. (R433) -/
  | pfiAssert
  /-- PFI_DEASSERT: PFI rises above 1.220 V. (R433) -/
  | pfiDeassert
  /-- PFW_CLEAR: The warning clears once PFI and MAINS_PFW have both been quiet for 100 ms, and held writes proceed. (R400) -/
  | pfwClear
  /-- THERMAL_SHUTDOWN: A 135 °C comparator trips, stopping the core die and driving the fail-safe. (R408) -/
  | thermalShutdown (programDone : Bool)
  /-- THERMAL_RESTART: TD_F reads below 100 °C for 2 s, and the device restarts with cause THERMAL. (R410) -/
  | thermalRestart
  /-- POR: The core rails reach power-good together, and the core die leaves power-on reset. (R432) -/
  | por (fieldFell : Bool)
  /-- RESET_N: RESET_N is held low for 10 µs or more, and the device resets until it rises. (R435) -/
  | resetN (rises : Bool)
  /-- VDD_FIELD_LOSS: VDD_FIELD falls below power-good, so every pre-driver gate is held low and AO drives 0 V. (R431) -/
  | vddFieldLoss
  /-- NVM_PROGRAM_END: A page program or COMMIT program ends; a committed write completes and compaction may start. (R415) -/
  | nvmProgramEnd
  /-- NVM_ERASE_END: A sector erase completes, and its journal entry is closed. (R412) -/
  | nvmEraseEnd
  /-- NVM_SCAN_END: The power-up scan ends, uncommitted copies resolved, and NVM service begins. (R419) -/
  | nvmScanEnd (found : List ScanCopy) (torn : Nat)
  /-- COMPACTION_HOLDOFF_END: 60 s after a cancelled compaction, automatic compaction may start again. (R372) -/
  | compactionHoldoffEnd
  /-- RAW_READ: NVM_RAW_CTRL GO with CMD READ copies a raw page and reports its state. (R429) -/
  | rawRead (v : Word)
  /-- RAW_PROGRAM: NVM_RAW_CTRL GO with CMD PROGRAM writes a raw page and its trailer mark. (R429) -/
  | rawProgram (v : Word)
  /-- RAW_ERASE: NVM_RAW_CTRL GO with CMD ERASE erases one raw sector. (R429) -/
  | rawErase (v : Word)
  /-- TOWPATH_ID: The console replies with the ordering code, revision, debug state and slot. (R445) -/
  | towpathId
  /-- TOWPATH_HEALTH: The console reports link, host, throttle, loads, retired units and rings. (R445) -/
  | towpathHealth
  /-- TOWPATH_TEMP: The console lists the 17 effective temperatures and the level. (R445) -/
  | towpathTemp
  /-- TOWPATH_RAILS: The console lists the rails, VSUP_SENSE and PFI. (R445) -/
  | towpathRails
  /-- TOWPATH_MAINS: The console reports the timebase. (R445) -/
  | towpathMains
  /-- TOWPATH_RTC: The console reports the RTC. (R445) -/
  | towpathRtc
  /-- TOWPATH_LOG: The console prints 16 log entries. (R445) -/
  | towpathLog (seq : Option Word)
  /-- TOWPATH_CLAIM: The console reports owner, claims, Belay state and pair role. (R445) -/
  | towpathClaim
  /-- TOWPATH_POINT: The console reads a point record. (R446) -/
  | towpathPoint (id : Word)
  /-- TOWPATH_UI: The console reports a UI without converting. (R445) -/
  | towpathUi (n : Fin 48)
  /-- TOWPATH_UI_NOW: The console makes an IO_READ_NOW of a UI and reports it. (R445) -/
  | towpathUiNow (n : Fin 48)
  /-- TOWPATH_COUNTERS: The console lists every count and the wear counters. (R445) -/
  | towpathCounters
  /-- TOWPATH_RESET_CAUSE: The console reports the recorded reset cause. (R436) -/
  | towpathResetCause
  /-- TOWPATH_COIL_DIAG: The console runs a channel's diagnostic cycle and reports it. (R445) -/
  | towpathCoilDiag (ch : Fin 48)
  /-- TOWPATH_ATB: The console claims the ATB route and routes a source to ATB_OUT. (R451) -/
  | towpathAtb (src : AtbSource)
  /-- TOWPATH_ATB_OFF: The console ties ATB_OUT to ATB_GND and releases the route. (R451) -/
  | towpathAtbOff
  /-- TOWPATH_BAUD: The console switches its line rate after its reply. (R440) -/
  | towpathBaud (rate : Nat)
  /-- BAUD_REVERT: No complete line arrives within 60 s at the new rate, so the console returns to 115,200 bit/s. (R440) -/
  | baudRevert
  /-- TOWPATH_AUTH: The console issues a level-1 challenge. (R449) -/
  | towpathAuth
  /-- TOWPATH_AUTH_2: The console issues a level-2 challenge. (R449) -/
  | towpathAuth2
  /-- TOWPATH_AUTH_TOKEN: A token answers the latest challenge and opens technician access or unlocks debug. (R449) -/
  | towpathAuthToken (token : Nat)
  /-- TOWPATH_AUTH_OFF: Technician access ends, and service writes are relinquished. (R449) -/
  | towpathAuthOff
  /-- TOWPATH_AUTH_ENROLL: The console starts enrolment of the first operator key. (R450) -/
  | towpathAuthEnroll
  /-- TOWPATH_AUTH_CONFIRM: The confirmation code completes enrolment, and the debug state becomes LOCKED. (R450) -/
  | towpathAuthConfirm (code : Nat)
  /-- ENROLL_TIMEOUT: 60 s pass without confirmation, and the enrolment ends with nothing enrolled. (R450) -/
  | enrollTimeout
  /-- TOWPATH_IDLE_TIMEOUT: 30 minutes pass without a Towpath command, ending technician access, debug unlock and the ATB route. (R393) -/
  | towpathIdleTimeout
  /-- TOWPATH_AO: The console makes a service write of an AO point at priority 1. (R447) -/
  | towpathAo (n : Fin 16) (volts : Word)
  /-- TOWPATH_COIL_TEST: The console makes a service write of a coil command from a current. (R448) -/
  | towpathCoilTest (ch : Fin 48) (ma : Nat)
  /-- TOWPATH_TG: The console makes a service write of a TG point. (R447) -/
  | towpathTg (n : Fin 16) (ac : Word)
  /-- TOWPATH_FAN: The console makes a service write of a fan point. (R447) -/
  | towpathFan (n : Fin 8) (pct : Word)
  /-- TOWPATH_RELEASE: The console ends a service write and relinquishes priority 1. (R447) -/
  | towpathRelease (out : OutRef)
  /-- TOWPATH_SELFTEST: The console runs SELF_TEST of one unit. (R445) -/
  | towpathSelftest (unit : Word)
  /-- TOWPATH_PEEK: The console reads a register under the debug state. (R392) -/
  | towpathPeek (addr : Word) (half : Bool)
  /-- TOWPATH_POKE: The console writes a register under the debug state. (R392) -/
  | towpathPoke (addr : Word) (v : Word) (mask : Word)
  /-- FIELD_DIE_POWER_UP: VDD_FIELD returns to power-good and the field die powers up: the timebase restarts in ACQUIRING, UI counts clear, the NVM scan and ADC_CAL run. (R216) -/
  | fieldDiePowerUp
  /-- VDRV_RECOVERED: VDRV rises above 9.5 V, and the coil pre-drivers may be energised again. (R431) -/
  | vdrvRecovered
  /-- CORE_RAIL_LOSS: VDD_AON, VDD_CORE or a core I/O, DRAM, PCIe or SerDes rail falls below power-good, and the core die enters power-on reset while the field die drives the fail-safe. (R432) -/
  | coreRailLoss (rail : Fin 12)
  /-- PCIE_LINK_UP: The PCIe link trains again after PERST# release, a hot reset or a link loss. (R320) -/
  | pcieLinkUp
  /-- PORT_LINK_CHANGE: An Ethernet, T1L or T1S PHY link comes up or goes down, which sets PORT_STATUS.LINK_UP and SPEED. (R255) -/
  | portLinkChange (port : Fin 24) (up : Bool) (speed : BitVec 2)
  /-- ROPE_SIGNAL_CHANGE: The Rope receiver gains or loses a valid signal, and ROPE_SD follows it. (R455) -/
  | ropeSignalChange (sd : Bool)
  /-- RELAY_COIL_START: At the start stamp computed for a RELAY_CLOSE occurrence, the coil pull-in is started so that the contacts touch at the target. (R33) -/
  | relayCoilStart (entry : Fin 1024)
  /-- SLUICE_DRAINED: The last event write in flight when the Sluice closed completes, and HIF_SLUICE_STATUS.DRAINED becomes 1. (R332) -/
  | sluiceDrained
  /-- AUTH_BLOCK_END: The block on `auth` after wrong technician tokens runs out, and challenges may be issued again. (R393) -/
  | authBlockEnd
  /-- CHALLENGE_EXPIRY: Five minutes pass after a technician challenge is issued, and it can no longer be answered. (R393) -/
  | challengeExpiry
  /-- TOWPATH_ENROLL_KEY_LINE: During enrolment, a line of 32 hexadecimal digits gives one quarter of the operator public key, and the fourth line is checked and answered with the confirmation code. (R450) -/
  | towpathEnrollKeyLine (half : List Byte)
  /-- TOWPATH_UNKNOWN_LINE: A console line that names no command, is malformed or overruns 80 characters is answered with err BAD_OPCODE or BAD_FORMAT. (R443) -/
  | towpathUnknownLine (why : BadLine)
  /-- WATCHDOG_RESET_DELAY: After an expired watchdog, the 25 MHz reference has run for 10 ms, and the device resets with cause WATCHDOG. (R437) -/
  | watchdogResetDelay
  deriving DecidableEq, Repr

end Sys2Proof
end

