-- ==== Sys2Proof/Decode.lean ====
section
/-! DEFINITION. Decode: the opcode table gives no row any bits (every row's "fields" is empty), so no word spells a
command. Host commands are decoded from descriptors in host memory, by the block itself, under R343–R345. -/
namespace Sys2Proof

/-- The command a table word spells: none, for every width and word. -/
def decodeTableWord (_nbits _w : Nat) : Option Instr := none

end Sys2Proof
end

