-- ==== Sys2Proof/Config.lean ====
section
/-! DEFINITION. Config: what the manual leaves open, as constants without a body. Nothing can be proved about a
value of one, so a claim holds whatever the part does there. The log entry of each is named in its docstring. -/
namespace Sys2Proof.Config

/-- Which of the two neighbouring binary32 values exp and ln take when the exact result lies between them
(R120: within 1 ulp). Log entry 5. -/
opaque expUp : Word → Bool
opaque lnUp : Word → Bool

/-- What READ gives as field 2 (age) or 3 (PRIO_ACTIVE) of a point that is not defined: point and field (R134). Log entry
185. -/
opaque undefinedField : Nat → Nat → Word

/-- The `n`-th word drawn from the random generator (R373, R381, R391, R393). Log entry 6. -/
opaque trng : Nat → Word

/-- A value the manual does not fix, drawn fresh by the device's free-value counter. Log entry 7. -/
opaque free : Nat → Word

/-- Digests, message authentication, signatures and key agreement: published algorithms the manual names and does
not restate (R374–R381, R386, R450). Log entry 8. -/
opaque sha256 : List Byte → List Byte
opaque sha384 : List Byte → List Byte
opaque hmacSha256 : List Byte → List Byte → List Byte
opaque ecdsaP256Ok : List Byte → List Byte → List Byte → Bool
opaque ecdsaP384Ok : List Byte → List Byte → List Byte → Bool
opaque certKey : List Byte → List Byte
opaque ecdsaP256Sign : List Byte → List Byte
opaque onP256 : List Byte → Bool
opaque ecdhHkdf : List Byte → Nat → List Byte → List Byte
opaque ecdhPublic : Nat → List Byte

/-- What one device carries from the factory or in boot ROM: serial number, Velben root key, certificate chain,
silicon revision (R373, R386, R320). Log entry 9. -/
opaque serial : List Byte
opaque velbenRoot : List Byte
opaque certChain : List Byte
opaque factoryVersion : Nat → Word
opaque siliconMajor : Byte
opaque siliconMinor : Byte

/-- What the manual's source does not give of the links: the two MAC addresses that lead an Ethernet frame of Kwela on a
T1S port, and the interface identifier of a port's IPv6 addresses (R255, R256). Log entry 167. -/
opaque macPair : Nat → BitVec 96
opaque ifaceId : Nat → BitVec 64

/-- The DRAM fitted, in MiB before inline ECC: true for 2 GiB, false for 1 GiB (R61). Log entry 9. -/
opaque dram2GiB : Bool

end Sys2Proof.Config
end

