-- ==== Sys2Proof/Machine/Bits.lean ====
section
/-! DEFINITION. Bits: fields of a 32-bit word as the register tables number them (R3), access codes (R6),
and little-endian words in byte lists (R4). -/
namespace Sys2Proof

/-- NAME[h:l] of a word (R3). -/
def fld (w : Word) (h l : Nat) : Nat := (w.toNat / 2 ^ l) % 2 ^ (h - l + 1)

/-- NAME[n] of a word (R3). -/
def bit (w : Word) (n : Nat) : Bool := w.toNat / 2 ^ n % 2 == 1

/-- The word with NAME[h:l] replaced by `v`, taken to the field's width. -/
def setFld (w : Word) (h l : Nat) (v : Nat) : Word :=
  BitVec.ofNat 32 (w.toNat - fld w h l * 2 ^ l + v % 2 ^ (h - l + 1) * 2 ^ l)

def setBit (w : Word) (n : Nat) (b : Bool) : Word := setFld w n n (if b then 1 else 0)

def b2n (b : Bool) : Nat := if b then 1 else 0

def wd (n : Nat) : Word := BitVec.ofNat 32 n

def hw (n : Nat) : Half := BitVec.ofNat 16 n

/-- A field placed at bit `l`; register words are sums of these. -/
def at' (l v : Nat) : Nat := v * 2 ^ l

/-- RW fields under `mask` take the written bits, the others keep the old ones (R6, R7). -/
def rwMask (old new mask : Word) : Word := (old &&& ~~~mask) ||| (new &&& mask)

/-- W1C fields under `mask`: each written 1 clears (R6). -/
def w1c (old new mask : Word) : Word := old &&& ~~~(new &&& mask)

/-- A count that saturates at `top` (the manual's "saturating"). -/
def satAdd (top n k : Nat) : Nat := min top (n + k)

/-- Byte `i` of a list, 0 beyond its end. -/
def byteAt (b : List Byte) (i : Nat) : Nat := (b.getD i 0).toNat

/-- The 16-bit little-endian field at offset `i` (R4). -/
def halfAt (b : List Byte) (i : Nat) : Nat := byteAt b i + 256 * byteAt b (i + 1)

/-- The 32-bit little-endian word at offset `i` (R4). -/
def wordAt (b : List Byte) (i : Nat) : Word :=
  wd (byteAt b i + 256 * byteAt b (i + 1) + 65536 * byteAt b (i + 2) + 16777216 * byteAt b (i + 3))

def bytesLE (n : Nat) : Nat → List Byte
  | 0 => []
  | k + 1 => BitVec.ofNat 8 n :: bytesLE (n / 256) k

/-- A word as its four bytes, least significant first (R4). -/
def wordBytes (w : Word) : List Byte := bytesLE w.toNat 4

/-- A list of words as bytes. -/
def wordsBytes (ws : List Word) : List Byte := ws.flatMap wordBytes

/-- The bytes with the four at offset `i` zeroed: a check field "taken as zero" (R90, R183). -/
def zero4 (b : List Byte) (i : Nat) : List Byte := b.take i ++ [0, 0, 0, 0] ++ b.drop (i + 4)

/-- A signed reading of the low `w` bits. -/
def sgn (w n : Nat) : Int := if n % 2 ^ w < 2 ^ (w - 1) then (n % 2 ^ w : Int) else (n % 2 ^ w : Int) - (2 : Int) ^ w

/-- An integer in `w` bits of two's complement. -/
def unsgn (w : Nat) (i : Int) : Nat := (i % (2 : Int) ^ w).toNat

end Sys2Proof
end

