-- ==== Sys2Proof/Machine/Crc.lean ====
section
/-! DEFINITION. Crc: CRC-32C (R308), the point check CRC-16 (R48) and the sensor-bus CRC-8 (R251). -/
namespace Sys2Proof

/-- `n` steps of a reflected CRC register. -/
def crcReflStep (poly : Nat) : Nat → Nat → Nat
  | 0, c => c
  | n + 1, c => crcReflStep poly n (if c % 2 = 1 then (c / 2) ^^^ poly else c / 2)

/-- CRC-32C: polynomial 0x1EDC6F41 reflected (0x82F63B78), initial and final 0xFFFFFFFF (R308). -/
def crc32c (b : List Byte) : Word :=
  wd ((b.foldl (fun c x => crcReflStep 0x82F63B78 8 (c ^^^ x.toNat)) 0xFFFFFFFF) ^^^ 0xFFFFFFFF)

/-- `n` MSB-first steps of a `w`-bit CRC register. -/
def crcStep (w poly : Nat) : Nat → Nat → Nat
  | 0, c => c
  | n + 1, c =>
    crcStep w poly n (if c / 2 ^ (w - 1) = 1 then ((c * 2) % 2 ^ w) ^^^ poly else (c * 2) % 2 ^ w)

/-- CRC-16, polynomial 0x8BB7, initial 0, MSB first, no final XOR (R48, R414). -/
def crc16 (b : List Byte) : Half :=
  hw (b.foldl (fun c x => crcStep 16 0x8BB7 8 (c ^^^ (x.toNat * 256))) 0)

/-- CRC-8, polynomial 0x31, initial 0xFF (R251). -/
def crc8 (b : List Byte) : Nat := b.foldl (fun c x => crcStep 8 0x31 8 (c ^^^ x.toNat)) 0xFF

/-- The point check over (ID, VALUE, QUALITY, KIND) in the order of R48. -/
def pointCheck (id : Nat) (value : Word) (quality kind : Nat) : Half :=
  crc16 (bytesLE (id % 2 ^ 23) 4 ++ wordBytes value ++ [BitVec.ofNat 8 (quality % 16), BitVec.ofNat 8 kind])

end Sys2Proof
end

