-- ==== Sys2Proof/Machine/Float.lean ====
section
/-! DEFINITION. Float: IEEE 754 binary32 on its bits (R4, R120): exact arithmetic on rationals, then one rounding to
nearest-even; subnormal inputs and results become zero and keep their sign. exp and ln are either binary32 neighbour
of the exact value. -/
namespace Sys2Proof

abbrev F32 := Word

namespace F32

/-- The quiet NaN of the manual (R97, R122). -/
def nan : F32 := 0x7FC00000#32
def zero : F32 := 0#32
def one : F32 := 0x3F800000#32
def hundred : F32 := 0x42C80000#32
def inf (neg : Bool) : F32 := if neg then 0xFF800000#32 else 0x7F800000#32

def neg? (x : F32) : Bool := bit x 31
def expo (x : F32) : Nat := fld x 30 23
def mant (x : F32) : Nat := fld x 22 0
def isNaN (x : F32) : Bool := expo x == 255 && mant x != 0
def isInf (x : F32) : Bool := expo x == 255 && mant x == 0
def finite (x : F32) : Bool := expo x != 255
def isZero (x : F32) : Bool := expo x == 0

/-- The magnitude of a finite value as numerator and denominator; a subnormal counts as zero. -/
def magNum (x : F32) : Nat :=
  if expo x = 0 then 0 else if 150 ≤ expo x then (8388608 + mant x) * 2 ^ (expo x - 150) else 8388608 + mant x
def magDen (x : F32) : Nat := if expo x < 150 then 2 ^ (150 - expo x) else 1

/-- The signed numerator over `magDen`. -/
def num (x : F32) : Int := if neg? x then -(magNum x : Int) else (magNum x : Int)

/-- How a quotient is narrowed to 24 significant bits. -/
inductive Rnd where
  | even | down | up
  deriving DecidableEq, Repr

def pack (ng : Bool) (e m : Nat) : F32 := wd (b2n ng * 2147483648 + e * 8388608 + m)

/-- `n / d` (d > 0) narrowed to binary32: overflow gives infinity, a result below the least normal gives zero. -/
def ofMag (r : Rnd) (ng : Bool) (n d : Nat) : F32 :=
  if n = 0 then pack ng 0 0 else
  let e0 : Int := (Nat.log2 n : Int) - (Nat.log2 d : Int)
  let below : Bool := if 0 ≤ e0 then decide (n < d * 2 ^ e0.toNat) else decide (n * 2 ^ (-e0).toNat < d)
  let e : Int := if below then e0 - 1 else e0
  let s : Int := 23 - e
  let n' := if 0 ≤ s then n * 2 ^ s.toNat else n
  let d' := if 0 ≤ s then d else d * 2 ^ (-s).toNat
  let q := n' / d'
  let rem := n' % d'
  let inc : Bool := match r with
    | .even => decide (d' < 2 * rem) || (2 * rem == d' && q % 2 == 1)
    | .down => false
    | .up => rem != 0
  let q' := if inc then q + 1 else q
  let e' := if q' = 16777216 then e + 1 else e
  let m := if q' = 16777216 then 0 else q' - 8388608
  if 127 < e' then inf ng
  else if e' < -126 then pack ng 0 0
  else pack ng (e' + 127).toNat m

/-- A signed rational narrowed to nearest-even; `zs` is the sign of an exact zero. -/
def ofRat (zs : Bool) (n : Int) (d : Nat) : F32 :=
  if n = 0 then pack zs 0 0 else ofMag .even (decide (n < 0)) n.natAbs d

def ofInt (i : Int) : F32 := ofRat false i 1
def ofNat (n : Nat) : F32 := ofInt n

/-- A subnormal becomes zero and keeps its sign (R120). -/
def flush (x : F32) : F32 := if isZero x then pack (neg? x) 0 0 else x

def neg (x : F32) : F32 := if isNaN x then nan else flush (x ^^^ 0x80000000#32)
def abs (x : F32) : F32 := if isNaN x then nan else flush (x &&& 0x7FFFFFFF#32)

def add (x y : F32) : F32 :=
  if isNaN x || isNaN y then nan
  else if isInf x then (if isInf y && neg? x != neg? y then nan else x)
  else if isInf y then y
  else ofRat (neg? x && neg? y) (num x * magDen y + num y * magDen x) (magDen x * magDen y)

def sub (x y : F32) : F32 := add x (neg y)

def mul (x y : F32) : F32 :=
  if isNaN x || isNaN y then nan
  else if isInf x || isInf y then (if isZero x || isZero y then nan else inf (neg? x != neg? y))
  else ofRat (neg? x != neg? y) (num x * num y) (magDen x * magDen y)

def div (x y : F32) : F32 :=
  if isNaN x || isNaN y then nan
  else if isInf x then (if isInf y then nan else inf (neg? x != neg? y))
  else if isInf y then pack (neg? x != neg? y) 0 0
  else if isZero y then (if isZero x then nan else inf (neg? x != neg? y))
  else
    let n := magNum x * magDen y
    if n = 0 then pack (neg? x != neg? y) 0 0 else ofMag .even (neg? x != neg? y) n (magDen x * magNum y)

/-- Order key of a value that is not a NaN: zeros of either sign are equal. -/
def key (x : F32) : Int :=
  if expo x = 0 then 0 else if neg? x then -((x.toNat % 2147483648 : Nat) : Int) else (x.toNat : Int)

def lt (x y : F32) : Bool := !isNaN x && !isNaN y && decide (key x < key y)
def le (x y : F32) : Bool := !isNaN x && !isNaN y && decide (key x ≤ key y)
def gt (x y : F32) : Bool := lt y x
def ge (x y : F32) : Bool := le y x
def eq (x y : F32) : Bool := !isNaN x && !isNaN y && key x == key y
def ne (x y : F32) : Bool := !(eq x y)
def min (x y : F32) : F32 := flush (if lt y x then y else x)
def max (x y : F32) : F32 := flush (if lt x y then y else x)
def clamp (x lo hi : F32) : F32 := min (max x lo) hi

/-- Finite value to the nearest integer, halves upward (log entry 16). -/
def round (x : F32) : Int := if finite x then (2 * num x + magDen x) / (2 * magDen x : Int) else 0

/-- Finite value towards minus infinity. -/
def floor (x : F32) : Int := if finite x then num x / (magDen x : Int) else 0

/-- Floor of a square root, one bit at a time. -/
def isqrt : Nat → Nat → Nat → Nat
  | 0, _, r => r
  | k + 1, n, r => isqrt k n (if (r + 2 ^ k) * (r + 2 ^ k) ≤ n then r + 2 ^ k else r)

/-- Correctly rounded square root of a value that is not negative; NaN for a negative one (R120). -/
def sqrt (x : F32) : F32 :=
  if isNaN x then nan else if isZero x then flush x else if neg? x then nan else if isInf x then x else
  let e : Int := (expo x : Int) - 150
  let odd := e % 2 ≠ 0
  let m := (8388608 + mant x) * (if odd then 2 else 1) * 2 ^ 60
  let h : Int := (if odd then e - 1 else e) / 2 - 30
  let q := isqrt 48 m 0
  let s := if q * q = m then 2 * q else 2 * q + 1
  if 0 ≤ h then ofMag .even false (s * 2 ^ h.toNat) 2 else ofMag .even false s (2 * 2 ^ (-h).toNat)

/-- ln 2 in units of 2^-100. -/
def ln2Fix : Nat := 878668439483319573618263538048

def expSeries : Nat → Nat → Nat → Nat → Nat
  | 0, _, _, s => s
  | k + 1, r, t, s => let t' := t * r / 2 ^ 100 / (32 - k); expSeries k r t' (s + t')

/-- exp: either neighbour of the exact value (R120). -/
def exp (x : F32) : F32 :=
  if isNaN x then nan
  else if isZero x then one
  else if gt x (ofNat 89) then inf false
  else if lt x (ofInt (-88)) then zero
  else
    let t : Int := num x * (2 : Int) ^ 100 / (magDen x : Int)
    let k := t / (ln2Fix : Int)
    let r := (t - k * ln2Fix).toNat
    let s := expSeries 32 r (2 ^ 100) (2 ^ 100)
    let rnd := if Config.expUp x then Rnd.up else Rnd.down
    let sh := k - 100
    if 0 ≤ sh then ofMag rnd false (s * 2 ^ sh.toNat) 1 else ofMag rnd false s (2 ^ (-sh).toNat)

def lnSeries : Nat → Nat → Nat → Nat → Nat → Nat
  | 0, _, _, _, s => s
  | n + 1, z2, t, i, s => lnSeries n z2 (t * z2 / 2 ^ 100) (i + 2) (s + t / i)

/-- Natural logarithm: either neighbour of the exact value; minus infinity at zero, NaN below it (R120). -/
def ln (x : F32) : F32 :=
  if isNaN x then nan else if isZero x then inf true else if neg? x then nan else if isInf x then x
  else if x = one then zero
  else
    let m := 8388608 + mant x
    let z := (m - 8388608) * 2 ^ 100 / (m + 8388608)
    let s := 2 * lnSeries 36 (z * z / 2 ^ 100) z 1 0
    let v : Int := ((expo x : Int) - 127) * ln2Fix + s
    let up := Config.lnUp x
    if v < 0 then ofMag (if up then .down else .up) true v.natAbs (2 ^ 100)
    else ofMag (if up then .up else .down) false v.natAbs (2 ^ 100)

/-- A decimal constant `n / d`. -/
def rat (n : Int) (d : Nat) : F32 := ofRat false n d

def ofBool (b : Bool) : F32 := if b then one else zero

/-- Sum of products, left to right. -/
def dot (xs ys : List F32) : F32 := (xs.zip ys).foldl (fun a p => add a (mul p.1 p.2)) zero

def sum (xs : List F32) : F32 := xs.foldl add zero

def mean (xs : List F32) : F32 := div (sum xs) (ofNat xs.length)

end F32
end Sys2Proof
end

