-- ==== Sys2Proof/Machine/Tab.lean ====
section
/-! DEFINITION. Tab: a sparse table keyed by number, in one canonical form (keys strictly rising). The manual's
tables, register files and sparse memories are held in it: a table whose entries all have a reset value lists
only the entries that differ from it. -/
namespace Sys2Proof

abbrev Tab (α : Type) := List (Nat × α)

/-- The entry at `k`, if listed. -/
def Tab.find : Tab α → Nat → Option α
  | [], _ => none
  | (j, v) :: t, k => if j = k then some v else Tab.find t k

/-- The entry at `k`, or the value an unlisted key reads as. -/
def Tab.get (d : α) (t : Tab α) (k : Nat) : α := (Tab.find t k).getD d

/-- The table with `k` unlisted: every entry at `k` goes. -/
def Tab.del : Tab α → Nat → Tab α
  | [], _ => []
  | (j, v) :: t, k => if j = k then Tab.del t k else (j, v) :: Tab.del t k

/-- The table with `k` listed as `v`, keys kept rising. -/
def Tab.put : Tab α → Nat → α → Tab α
  | [], k, v => [(k, v)]
  | (j, u) :: t, k, v =>
    if k < j then (k, v) :: (j, u) :: t
    else if k = j then (k, v) :: t
    else (j, u) :: Tab.put t k v

/-- Write `v` at `k` in a table whose unlisted keys read `d`: writing `d` unlists the key. -/
def Tab.set [DecidableEq α] (d : α) (t : Tab α) (k : Nat) (v : α) : Tab α :=
  if v = d then Tab.del t k else Tab.put t k v

/-- Change the listed entry at `k`; an unlisted key stays unlisted. -/
def Tab.upd (t : Tab α) (k : Nat) (f : α → α) : Tab α :=
  match t with
  | [] => []
  | (j, v) :: r => if j = k then (j, f v) :: r else (j, v) :: Tab.upd r k f

def Tab.keys (t : Tab α) : List Nat := t.map Prod.fst

def Tab.mapVals (t : Tab α) (f : Nat → α → α) : Tab α := t.map fun p => (p.1, f p.1 p.2)

/-- Every key lies above `lo`, rising. -/
def Tab.above : Nat → Tab α → Bool
  | _, [] => true
  | lo, (k, _) :: t => decide (lo < k) && Tab.above k t

/-- The canonical form: keys strictly rising. -/
def Tab.wf : Tab α → Bool
  | [] => true
  | (k, _) :: t => Tab.above k t

/-- The lowest number below `n` that is not listed (the lowest free entry). -/
def Tab.firstFree (t : Tab α) (n : Nat) : Option Nat :=
  (List.range n).find? fun k => (Tab.find t k).isNone

end Sys2Proof
end

