-- ==== Sys2Proof/Machine/State.lean ====
section
/-! DEFINITION. State: every register, table, queue, counter, mode and pin the manual gives the block, one structure
per functional unit, and the queue of commands. Plain data. A table that lists nothing reads its default everywhere. -/
namespace Sys2Proof.Machine

/-! ## Timebase (R15–R36) -/

inductive TbState | acquiring | relocking | locked | holdover | lost | synthetic
  deriving DecidableEq, Repr

/-- An angle event entry (R27) with its next occurrence (R29) and for RELAY_CLOSE the start stamp (R33) and whether the
coil has started. -/
structure AngleEntry where
  w0 : Word
  w1 : Word
  w2 : Word
  w3 : Word
  occ : Stamp
  start : Stamp
  started : Bool
  deriving DecidableEq, Repr

/-- A timebase event that waits for its ring (R28): the ring, ARG, the occurrences it stands for, the latest one's stamp
and LATE, TB_STATUS.STATE at its dispatch. It outlives a write of its entry. -/
structure AngleWait where
  cq : Nat
  arg : Word
  count : Nat
  stamp : Stamp
  late : Bool
  st : Nat
  deriving DecidableEq, Repr

structure Timebase where
  ctrl : Word := 0x20#32
  mode : Nat := 0
  st : TbState := .acquiring
  aligned : Bool := false
  present : Bool := false
  everPresent : Bool := false
  flags : Word := 0#32
  snap : Word := 0#32
  angle : Half := 0#16
  cycle : Word := 0#32
  rate : Word := 0x42480000#32
  /-- the rate without the (1 + k) of a phase slew (R21) -/
  base : Word := 0x42480000#32
  measured : Word := 0x42480000#32
  held : Word := 0x42480000#32
  ofs : Half := 0#16
  err : Half := 0#16
  glitch : Nat := 0
  missed : Nat := 0
  scale : Word := 0x3F800000#32
  halves : List Word := []
  agree : Nat := 0
  inPhase : Nat := 0
  missRun : Nat := 0
  pfwRaised : Bool := false
  jump : Nat := 0
  jumpSource : Nat := 0
  /-- a phase slew outside RELOCKING (R21): k in signed millionths, and the counts still to pass at base × (1 + k) -/
  slewK : Int := 0
  slewLeft : Nat := 0
  refRuns : Bool := true
  lostByRef : Bool := false
  entries : Tab AngleEntry := []
  /-- occurrences on or before the landing count of the write that has replaced their entry, still to be dispatched as
  the entry was (R31) -/
  owed : List (Nat × AngleEntry) := []
  /-- by angle event entry -/
  waiting : Tab AngleWait := []
  lateCount : Nat := 0
  deriving DecidableEq, Repr

/-- The die link as each die sees it (R9–R11): frames lost by the field die, frames lost by the core die, retries
since the last entry about the link. The core die's own clock (R10, R11): the mains frequency last reported to it, its
stamp minus the field die's at the start of the present cycle and what that difference gains over the cycle, in ac. -/
structure DieLink where
  fieldLost : Bool := false
  coreLost : Bool := false
  retries : Nat := 0
  coreHz : Word := 0x42480000#32
  coreOff : Int := 0
  coreDrift : Int := 0
  deriving DecidableEq, Repr

/-! ## Points (R37–R66) -/

/-- A point record (R40). -/
structure Rec where
  value : Word
  check : Half
  status : Half
  stamp : Stamp
  kind : Nat
  prio : Nat
  wall : Word
  source : Word
  cov : Word
  link : Word
  deriving DecidableEq, Repr

/-- A priority array entry (R57): slot p unlisted is NULL. -/
structure Prio where
  slots : Tab Word := []
  dflt : Word := 0#32
  minOn : Nat := 0
  minOff : Nat := 0
  limit : Word := 0x7FFFFFFF#32
  degraded : Nat := 0
  deriving DecidableEq, Repr

/-- What an operation in the point engine's input queue does. -/
inductive PointAct
  | write (value : Word) (quality : Nat) (check : Option Half) (prio : Nat)
  | relinquish (prio : Nat)
  | quality (q : Nat)
  /-- a minimum-time lock ends (R60) -/
  | lockEnd
  /-- a limit block's STALE_TIMEOUT has run out (R78) -/
  | stale
  deriving DecidableEq, Repr

/-- Whose write it is, for the rules that ask (R55, R56, R288): the point's own field source, a remote client of a
port, or neither; whether authorised; the claim it carries (0: BELAY_OWNER at delivery). -/
inductive Writer | field | remote (port : Nat) | inner | host
  deriving DecidableEq, Repr

/-- An operation on one point (R64): the stamp its value is given, its writer, and the count at which it arrived at the
engine (R54). -/
structure PointOp where
  id : Nat
  act : PointAct
  stamp : Stamp
  source : Word
  arrived : Stamp := ⟨0#32, 0#16⟩
  writer : Writer
  authorised : Bool := false
  roped : Bool := false
  claim : Half := 0#16
  loop : Option LoopRef := none
  deriving DecidableEq, Repr

/-- A resolved value on its way to an output stage or gate (R288). -/
structure Delivery where
  id : Nat
  value : Word
  quality : Nat
  check : Half
  stamp : Stamp
  claim : Half
  refresh : Bool := false
  again : Bool := false
  deriving DecidableEq, Repr

/-- A subscription entry (R67), NEXT being the next index of its point's chain or its own, with the merge count of R72 and
its place among the pending changes (R74). -/
structure Sub where
  cls : Nat
  point : Nat
  target : Word
  pending : Bool
  lastQuality : Nat
  lastSent : Word
  lastFlags : Nat
  merged : Nat
  order : Nat
  fresh : Bool
  next : Nat := 0
  deriving DecidableEq, Repr

/-- A limit block (R75) with the row that is pending (R77): 0 none. -/
structure Limit where
  high : Word
  low : Word
  deadband : Word
  delays : Word
  w10 : Word
  staleAfter : Word
  pendSince : Word
  targets : Word
  pendTo : Option Nat
  point : Nat
  deriving DecidableEq, Repr

/-- What a SUB index holds: a subscription, the first or the second half of a limit block. -/
inductive SubSlot | sub (s : Sub) | limit (l : Limit) | second
  deriving DecidableEq, Repr

/-- An alarm queue entry (R79): transition, targets kept, targets still to be served, acknowledgement. -/
structure Alarm where
  seq : Nat
  point : Nat
  fromState : Nat
  toState : Nat
  value : Word
  quality : Nat
  check : Half
  kind : Nat
  stamp : Stamp
  priority : Nat
  ackNeeded : Bool
  acked : Bool
  cq : Option Nat
  ports : List Nat
  deriving DecidableEq, Repr

/-- A trend sample (R82). -/
structure Sample where
  value : Word
  type : Nat
  quality : Nat
  stamp : Stamp
  merged : Nat
  check : Half
  deriving DecidableEq, Repr

/-- A trend log (R81–R85, R363). -/
structure Trend where
  point : Nat
  cq : Nat
  stopWhenFull : Bool
  mode : Nat
  period : Nat
  phase : Nat
  capacity : Nat
  notify : Nat
  samples : List Sample := []
  /-- where in the ring buffer the next sample goes -/
  pos : Nat := 0
  total : Nat := 0
  started : Bool := false
  stopped : Bool := false
  gap : Option Stamp := none
  sinceEvent : Nat := 0
  ready : Bool := false
  deriving DecidableEq, Repr

/-- The accepted memory plan (R361). -/
structure Plan where
  pair : Bool
  points : Nat
  commandable : Nat
  subs : Nat
  loopMib : Nat
  loops : Nat
  zones : Nat
  deriving DecidableEq, Repr

structure PointEngine where
  plan : Option Plan := none
  recs : Tab Rec := []
  prios : Tab Prio := []
  subs : Tab SubSlot := []
  /-- the first entry of each point's chain, what the hash over SUB finds (R67) -/
  subHead : Tab Nat := []
  order : Nat := 0
  alarms : List Alarm := []
  alarmSeq : Nat := 0
  lostTotal : Nat := 0
  lostSince : Tab (Nat × Stamp) := []
  trends : Tab Trend := []
  queue : List PointOp := []
  /-- operations behind a full input queue, held by their writers (R66) -/
  held : List PointOp := []
  /-- writes of the field die held while the die link is down (R254) -/
  heldField : List PointOp := []
  p0 : Bool := true
  p1 : Bool := true
  testing : Bool := false
  /-- the next operation of a host command is to mismatch (R64): whether its repeat agrees -/
  upset : Option Bool := none
  lastLone : Nat := 0
  deliveries : List Delivery := []
  kept : Tab Nat := []
  divert : Tab (Nat × Nat) := []
  checkFails : Nat := 0
  deriving DecidableEq, Repr

/-! ## Loops (R87–R137) -/

/-- A block slot with its extension words, none when it owns no extension slot (R115, R118). -/
structure Block where
  op : Nat
  disable : Bool
  flags : Nat
  tag : Nat
  noOut : Bool
  out : Nat
  ins : List Word
  p0 : Word
  p1 : Word
  ext : List Word
  deriving DecidableEq, Repr

/-- A loop program (R90): header fields, blocks, constants, and whether its load was authorised (R359). -/
structure Prog where
  resetRegs : Bool
  relinquish : Bool
  trigger : Nat
  fast : Bool
  roped : Bool
  slots : Nat
  outPrio : Nat
  period : Nat
  phase : Nat
  tolerance : Word
  homeB : Bool
  tag : Word
  blocks : List Block
  consts : List Word
  authorised : Bool
  deriving DecidableEq, Repr

/-- One cluster's copy of a loop (R88, R99): registers (unlisted 0.0 UNCOMMISSIONED) and block states, the empty
list for a block not yet evaluated since LOOP_START. -/
structure LoopCopy where
  regs : Tab (Word × Nat) := []
  blocks : List (List Word) := []
  deriving DecidableEq, Repr

/-- What a WRITE block hands on at the end of an evaluation (R98, R135). -/
structure LoopWrite where
  id : Nat
  prio : Nat
  value : Word
  quality : Nat
  tolerance : Word
  kind : Nat
  deriving DecidableEq, Repr

/-- An input as the snapshot holds it (R97). -/
structure SnapIn where
  id : Nat
  value : Word
  quality : Nat
  stamp : Stamp
  prio : Nat
  deriving DecidableEq, Repr

/-- One cluster's part of an evaluation: registers and block states it leaves, the writes it issues, whether it has
ended and when (R98), whether its cluster owned then and the claim it held (R100), and whether its results were discarded
(R103). -/
structure Part where
  copy : LoopCopy
  writes : List LoopWrite
  done : Bool := false
  ended : Stamp := ⟨0#32, 0#16⟩
  own : Bool := false
  claim : Half := 0#16
  missing : Bool := false
  deriving DecidableEq, Repr

/-- An evaluation in progress: its tick, the engine index, and the clusters' parts; whether the owner's writes have been
applied. -/
structure Running where
  tick : Stamp
  engine : Nat
  a : Option Part
  b : Option Part
  deriving DecidableEq, Repr

structure Loop where
  st : Nat
  prog : Prog
  a : LoopCopy := {}
  b : LoopCopy := {}
  due : Option Stamp := none
  /-- every tick that waits has an odd number and no wake with it (R108) -/
  dueOdd : Bool := false
  woken : Bool := false
  running : Option Running := none
  prevTick : Option Stamp := none
  lastTick : Stamp := ⟨0#32, 0#16⟩
  lastDone : Stamp := ⟨0#32, 0#16⟩
  overrun : Nat := 0
  stretch : Nat := 0
  mismatch : Nat := 0
  missing : Nat := 0
  writeFail : Nat := 0
  stopping : Bool := false
  /-- the LOOP_STOP that waits for the end of the evaluation (R111) -/
  stopCmd : Option HostCmd := none
  wrote : List (Nat × Nat) := []
  next : Option Prog := none
  swapCmd : Option HostCmd := none
  /-- the swap tick has come while an evaluation of the old program was open (R113) -/
  swapDue : Bool := false
  /-- a tuned program that the next evaluation takes (R112) -/
  tuned : Option Prog := none
  lastEngine : Nat := 0
  /-- waited past the start of the next cycle (R107) -/
  late : Bool := false
  deriving DecidableEq, Repr

/-- A tick group of fast loops (R94): its angle event entry. -/
structure TickGroup where
  halves : Nat
  angle : Nat
  entry : Nat
  deriving DecidableEq, Repr

structure Loops where
  fabric : Tab Loop := []
  fast : Tab Loop := []
  groups : List TickGroup := []
  /-- engines at work, by 4 × cluster + index, with the loop each computes; fast work pre-empts fabric work (R95) -/
  busy : List (Nat × LoopRef) := []
  deriving DecidableEq, Repr

/-! ## Zones (R138–R162) -/

/-- A zone: its 512-byte record as words by offset / 4 (R139), a configuration that takes effect at the next step
(R140), a fit that does (R162), merged due steps (R160), whether RCHECK stands, stopped (R141). -/
structure Zone where
  words : Tab Word
  edit : Option (Tab Word) := none
  fit : Option (List Word) := none
  merged : Nat := 0
  /-- a regressor input was unusable when PHI was formed (R145) -/
  phiBad : Bool := false
  /-- RTC sets seen at the last forecast (R154) -/
  fcSet : Nat := 0
  /-- To, x3, x4, P_OCC and occupancy held by the last forecast (R154) -/
  fc : List Word := []
  sound : Bool := true
  stopped : Bool := false
  stepped : Bool := false
  toW : Word := 0#32
  pred : Word := 0x7FC00000#32
  at' : Stamp := ⟨0#32, 0#16⟩
  noAir : Bool := false
  /-- the run-time second up to which its due steps have run or been merged (R142, R160) -/
  served : Nat := 0
  /-- the occupancy inputs whose AUX holds a value (R147) -/
  auxSet : List Nat := []
  deriving DecidableEq, Repr

/-- A weather site table (R153). -/
structure Site where
  outdoor : Nat
  solar : Nat
  start : Word
  rows : List (Word × Word)
  deriving DecidableEq, Repr

structure Zones where
  zones : Tab Zone := []
  sites : Tab Site := []
  mismatch : Nat := 0
  skipped : Nat := 0
  /-- RTC sets so far (R154) -/
  rtcSets : Nat := 0
  /-- the run-time second of the last fabric tick, at which due steps start (R142) -/
  tickSec : Nat := 0
  deriving DecidableEq, Repr

/-! ## Clock, calendars, schedules (R163–R189) -/

/-- The seven RTC fields (R166, R170). -/
structure RtcFields where
  sec : Nat := 0
  min : Nat := 0
  hour : Nat := 0
  day : Nat := 1
  wday : Nat := 6
  month : Nat := 1
  year : Nat := 0
  deriving DecidableEq, Repr

structure Clock where
  ctrl : Word := 0x8#32
  status : Word := 0#32
  now : RtcFields := {}
  snapLk : RtcFields := {}
  snapReg : RtcFields := {}
  snapTow : RtcFields := {}
  frozen : RtcFields := {}
  written : Bool := false
  alm0Date : Word := 0#32
  alm0Time : Word := 0#32
  alm1Time : Word := 0#32
  wake : Word := 0#32
  trim : Word := 0#32
  bytes : Tab Word := []
  byte31 : Word := 0#32
  onVbak : Bool := false
  absent : Bool := false
  /-- the sub-second count as it was last known; within a second it runs on from there (R166, R168) -/
  subsec : Nat := 0
  /-- the stamp of the last increment when an alarm set EVENT at it (R178) -/
  almAt : Option Stamp := none
  heldWall : Word := 0#32
  heldAt : Nat := 0
  discOpen : Bool := false
  discCycle : Word := 0#32
  discSecs : Nat := 0
  waiting : Tab (Word × Word) := []
  stopSeen : Bool := false
  deriving DecidableEq, Repr

/-- A transition: minute of the local day and value, all ones for NULL (R183). -/
structure Trans where
  minute : Nat
  value : Word
  deriving DecidableEq, Repr

/-- A schedule's exception (R183). -/
structure SchedExc where
  inline : Bool
  prio : Nat
  cal : Nat
  entry : Word
  list : List Trans
  deriving DecidableEq, Repr

/-- A loaded schedule (R183–R188): program, the present value last evaluated, the next-transition entry (wall time of
it and its value). -/
structure Sched where
  prio : Nat
  rule : Nat
  target : Nat
  dflt : Word
  days : List (List Trans)
  excs : List SchedExc
  authorised : Bool
  size : Nat
  present : Option Word := none
  next : Option (Nat × Word) := none
  deriving DecidableEq, Repr

structure Schedules where
  rules : Tab (List Word) := []
  cals : Tab (List Word) := []
  scheds : Tab Sched := []
  /-- offset of each rule at the last evaluation, for the local-time change event (R189) -/
  lastOffset : Tab Int := []
  deriving DecidableEq, Repr

/-! ## Converters and universal inputs (R190–R216) -/

/-- Who waits for an urgent conversion (R207): an IO_READ_NOW of a host or of the console, a coil diagnostic, the
self-test of the path. -/
inductive Urgent
  | readNow (ui : Nat) (cmd : Option HostCmd)
  | coilDiag (ch : Nat)
  | selfTest
  deriving DecidableEq, Repr

/-- What a converter is doing (R202, R204, R215). -/
inductive AdcRun
  | idle
  | slot (s : Nat)
  | urgent (u : Urgent) (aborted : Option Nat)
  | cal (gain : Nat) (held : Bool)
  deriving DecidableEq, Repr

/-- The notch stage of a converter (R200): the number of the bin its window opened at, the number of the bin its last sinc
word fell in, and of each bin the sum and number of its sinc words and a clipped one among them. -/
structure Notch where
  opened : Option Nat := none
  cur : Nat
  bins : Tab (Int × Nat × Option Bool) := []
  deriving DecidableEq, Repr

structure Adc where
  status : Word := 0#32
  aborted : Nat := 0
  trigLost : Nat := 0
  timer : Word := 0#32
  pwmTrig : Tab Word := []
  offset : Tab Word := []
  gain : Tab Word := []
  cfg : Tab Word := []
  filt : Tab Word := []
  res : Tab Word := []
  /-- VALID words nobody has taken: 1, or 2 when clipped (R198, R211) -/
  fresh : Tab Nat := []
  /-- VALID words that no die-link frame has carried yet, coded as `fresh` (R213) -/
  unsent : Tab Nat := []
  stamps : Tab Stamp := []
  /-- sum and number of the VALID words of a slot in the present cycle (R218) -/
  sums : Tab (Int × Nat) := []
  run : AdcRun := .idle
  pending : Option Nat := none
  /-- urgent requests that wait, each with the count of its arrival (R208) -/
  urgents : List (Urgent × Stamp) := []
  lastConf : Option (Nat × Nat) := none
  settle : Nat := 0
  calibrated : Bool := false
  /-- the gain stage that waits behind urgent conversions (R207) -/
  calNext : Option Nat := none
  calNew : Tab (Word × Word) := []
  /-- the slot of a sequence that a calibration has interrupted -/
  resume : Option Nat := none
  notch : Option Notch := none
  /-- the upper half latched by the 16-bit path, and the slot it belongs to while the word still stands there (R212) -/
  latch : Half := 0#16
  latchSlot : Option Nat := none
  ovrCount : Nat := 0
  slotWait : Tab (Word × Word) := []
  deriving DecidableEq, Repr

structure Ui where
  cfg : Word := 0#32
  par0 : Word := 0#32
  par1 : Word := 0#32
  count : Nat := 0
  level : Bool := false
  edge : Option Stamp := none
  lastValue : Word := 0#32
  lastQuality : Nat := 5
  lastStamp : Stamp := ⟨0#32, 0#16⟩
  deriving DecidableEq, Repr

/-- A calibration under way (R215, R216): its long-operation slot, none for the Lock-keeper's own; converters still to
do, the first one running; mask of those done; a failure met. -/
structure CalJob where
  slot : Option Nat
  todo : List Nat
  done : Nat
  failed : Bool
  deriving DecidableEq, Repr

structure Inputs where
  adcs : Tab Adc := []
  uis : Tab Ui := []
  refReady : Bool := false
  extGood : Bool := true
  ratioGood : Bool := true
  vrefExt : Word := 0x40200000#32
  cals : List CalJob := []
  deriving DecidableEq, Repr

/-! ## Coil banks (R217–R239) -/

structure Bank where
  cfg : Word := 0x1914#32
  diag : Nat := 0
  deriving DecidableEq, Repr

/-- A coil channel: its nine configuration registers, state, diagnostic code, queued command, command and setpoint
in force, loop memory, duty window, motion register, request, waiting COIL_CMD, angle event entry. -/
structure Chan where
  cfg : Word := 0x40#32
  ipk : Word := 0#32
  imin : Word := 0#32
  imax : Word := 0#32
  time : Word := 100#32
  dither : Word := 0x640000#32
  loop : Word := 0x2010#32
  limit : Word := 0x3C0064#32
  i2t : Word := 0#32
  st : Nat := 0
  diag : Nat := 0
  queued : Option Word := none
  x : Word := 0#32
  target : Word := 0#32
  suspect : Bool := false
  limited : Bool := false
  motion : Word := 0#32
  dipKnown : Bool := false
  dipSeen : Bool := false
  noDetect : Bool := false
  integ : Word := 0#32
  duty : Word := 0#32
  lastDuty : Word := 0x3F000000#32
  /-- PWM periods so far, which the dither counts its time by (R220) -/
  periods : Nat := 0
  /-- the sub-windows ended: PULL_IN time in ac and I² integral in A²s (R231) -/
  window : List (Nat × Word) := []
  /-- pull-in time (ac) and I² integral since the last sub-window ended, and the start of a PULL_IN in progress -/
  partAc : Nat := 0
  partI2 : Word := 0#32
  pullStart : Option Stamp := none
  request : Option Stamp := none
  entry : Option Nat := none
  armed : Bool := false
  waiting : List HostCmd := []
  failSafe : Bool := false
  measured : Word := 0#32
  deriving DecidableEq, Repr

structure Coils where
  banks : Tab Bank := []
  chans : Tab Chan := []
  vdrvGood : Bool := true
  /-- COIL_DIAGs that wait for the end of a channel's diagnostic cycle -/
  diagWait : List (Nat × HostCmd) := []
  deriving DecidableEq, Repr

/-! ## Other outputs and sensor buses (R240–R254) -/

structure Ao where
  cfg : Word := 0#32
  code : Nat := 0
  limited : Bool := false
  short : Bool := false
  applied : Word := 0#32
  target : Word := 0#32
  deriving DecidableEq, Repr

structure Tg where
  cfg : Word := 0x32000004#32
  ref : Word := 0x1000000#32
  nolock : Bool := false
  angle : Nat := 32768
  value : Word := 0x47000000#32
  target : Word := 0x47000000#32
  held : Option Word := none
  acc : Word := 0#32
  firing : Bool := false
  entry : Option Nat := none
  deriving DecidableEq, Repr

structure Fan where
  cfg : Word := 0x200#32
  rpm : Nat := 0
  duty : Nat := 0
  stall : Bool := false
  target : Word := 0#32
  applied : Word := 0#32
  edges : List Nat := []
  deriving DecidableEq, Repr

structure Bus where
  cfg : Word := 0xA00#32
  fails : Nat := 0
  late : Nat := 0
  stuck : Bool := false
  sensor : Nat := 0
  templates : Tab (List Word) := []
  failRun : Tab Nat := []
  retry : Tab Nat := []
  phase : Tab Nat := []
  /-- sensors that wait for the bus, by index: 0 for a poll, 1 for the read after a trigger, 2 for a retry (R252) -/
  wait : Tab Nat := []
  deriving DecidableEq, Repr

structure Outputs where
  aos : Tab Ao := []
  tgs : Tab Tg := []
  fans : Tab Fan := []
  buses : Tab Bus := []
  /-- the resource table (R240): owner by resource descriptor -/
  owners : Tab Word := []
  deriving DecidableEq, Repr

/-! ## Ports (R255–R265) and Kwela (R266–R281) -/

structure Port where
  image : List Byte := []
  core : Nat := 0
  proto : Nat := 0
  scUp : Bool := false
  /-- the hub in use, 1 the failover (R261) -/
  scHub : Nat := 0
  addrOk : Bool := false
  qTx : Bool := false
  qFwd : Bool := false
  speed : Nat := 0
  linkUp : Bool := false
  isOpen : Bool := false
  dropRaw : Nat := 0
  dropCore : Nat := 0
  guardRefused : Nat := 0
  checkFail : Nat := 0
  coreQ : List Frame := []
  rawQ : List Frame := []
  nextBuf : Nat := 0
  usedBufs : List (Nat × Nat) := []
  dropSince : Nat := 0
  ip4 : Word := 0#32
  mask4 : Word := 0#32
  gw4 : Word := 0#32
  /-- the prefix that SLAAC has taken (R256) -/
  prefix6 : Option (List Byte) := none
  held : Bool := false
  rxErrors : Nat := 0
  syncDropped : Nat := 0
  /-- non-essential transmissions that wait (R265): kind (0 a frame, else as `Output.bacnet`) and contents -/
  waitTx : List (Nat × List Nat) := []
  deriving DecidableEq, Repr

/-- A port map entry, its four words (R257). -/
structure MapEntry where
  w0 : Word
  w1 : Word
  w2 : Word
  w3 : Word
  polling : Bool := false
  /-- the expiry of the poll's response, where the port's image gives a timeout (R35) -/
  due : Option Stamp := none
  failed : Bool := false
  /-- BACnet clients subscribed, 4,096 × the client's own number plus its port, and those of them whose notification waits
  for the port -/
  bindings : List Nat := []
  unsent : List Nat := []
  /-- a value has passed the transmit gate while the port could not send it -/
  owed : Bool := false
  deriving DecidableEq, Repr

structure Ports where
  ports : Tab Port := []
  map : Tab MapEntry := []
  deriving DecidableEq, Repr

/-- A Kwela frame queued for sending (R267, R268): rank in the queue order, destination, bytes, whether answered by
ACK or DIAG, SEQ, the COMMAND's points. -/
structure KFrame where
  rank : Nat
  dst : Nat
  type : Nat
  ver : Nat
  ackReq : Bool
  seq : Nat
  retry : Bool
  payload : List Byte
  claim : Half
  stamp : Option Stamp
  points : List Nat
  deriving DecidableEq, Repr

/-- A frame in flight to a device (R280): resends made and the expiry of its answer. -/
structure KFlight where
  frame : KFrame
  resends : Nat
  due : Option Stamp
  deriving DecidableEq, Repr

structure KDevice where
  trunk : Nat
  ver : Nat
  cls : Nat
  model : Nat
  serial : Nat
  listings : List (Nat × Bool)
  silent : Bool := false
  lastSeq : Option Nat := none
  txSeq : Nat := 0
  flight : Option KFlight := none
  nextHello : Nat := 0
  deriving DecidableEq, Repr

structure KScan where
  slot : Nat
  /-- the ends of this slot and of the one before (R35) -/
  due : Stamp
  before : Stamp
  overruns : Nat
  collisions : Nat
  found : List (List Byte)
  op : Nat
  deriving DecidableEq, Repr

structure Trunk where
  queue : List KFrame := []
  crc : Nat := 0
  collision : Nat := 0
  retry : Nat := 0
  silents : Nat := 0
  diag : Nat := 0
  conflict : Nat := 0
  refused : Nat := 0
  scan : Option KScan := none
  bcastSeq : Nat := 0
  deriving DecidableEq, Repr

structure Kwela where
  trunks : Tab Trunk := []
  devices : Tab KDevice := []
  pendingOut : List Delivery := []
  deriving DecidableEq, Repr

/-! ## Belay and pair mode (R282–R306) -/

structure Track where
  claim : Half := 0#16
  live : Bool := false
  misses : Nat := 0
  seq : Half := 0#16
  started : Bool := false
  withdrawn : Bool := false
  stopped : Bool := false
  pref : Nat := 0
  health : Nat := 200
  /-- when the next miss falls due (R35, R286) -/
  due : Option Stamp := none
  deriving DecidableEq, Repr

structure Belay where
  cfg : Word := 0#32
  a : Track := {}
  b : Track := {}
  owner : Half := 0#16
  ownerUnit : Nat := 0
  /-- stage state by stage number (coil channels 0–47, AO 48–63, TG 64–79, FAN 80–87, transmit gates 999, one user
  output point 1000 + id): 0 NORMAL, 1 HELD, 2 NO_OWNER, 3 fail-safe -/
  stages : Tab Nat := []
  refused : Tab Nat := []
  switchovers : Nat := 0
  hbMissed : Nat := 0
  flags : Word := 0#32
  /-- the end of the start wait, while it runs (R306) -/
  waiting : Option Stamp := none
  /-- when a stage still HELD after an owner change is late (R293) -/
  refreshDue : Option Stamp := none
  chosen : Bool := false
  sensorFall : Bool := false
  deriving DecidableEq, Repr

structure Pair where
  enabled : Bool := false
  upper : Bool := false
  prefA : Nat := 0
  prefB : Nat := 0
  witness : List Nat := []
  shared : List Nat := []
  hash : List Byte := []
  role : Nat := 0
  twinLow : Half := 0#16
  twinHigh : Half := 0#16
  linkUp : Bool := false
  /-- the link has been found silent while the witness lives, until it returns (R302) -/
  linkLost : Bool := false
  /-- when the link counts as silent, the last witness beacon no longer counts, nothing has come from the twin for 1 s, and
  a search ends (R298, R299, R302, R303) -/
  linkDue : Option Stamp := none
  witnessDue : Option Stamp := none
  heardDue : Option Stamp := none
  searchDue : Option Stamp := none
  mismatch : Bool := false
  lag : Nat := 0
  lagging : Bool := false
  resyncs : Nat := 0
  dirtyPoints : List Nat := []
  dirtyLoops : List LoopRef := []
  dirtyZones : List Nat := []
  lostSync : Bool := false
  ropeSd : Bool := false
  deriving DecidableEq, Repr

/-! ## Integrity (R307–R319) -/

/-- A unit test under way (R314, R315): triggers by error, by SELF_TEST of slot, by the boot retest. -/
structure UnitTest where
  byError : Bool
  slot : Option Nat
  console : Bool
  retest : Bool
  reinstate : Option Cluster
  scheduled : Bool
  upset : Bool := false
  deriving DecidableEq, Repr

structure Integrity where
  tests : Tab UnitTest := []
  retired : List Nat := []
  transients : Tab (List Nat) := []
  spares : Tab Nat := []
  reserve : Nat := 4
  remaps : Tab Nat := []
  ecc : Tab Nat := []
  deriving DecidableEq, Repr

/-! ## Host interface and rings (R320–R354) -/

structure Ring where
  lo : Word := 0#32
  hi : Word := 0#32
  cfg : Word := 0#32
  coal : Word := 1#32
  head : Nat := 0
  tail : Nat := 0
  phase : Bool := true
  rev : Nat := 0
  counted : Nat := 0
  /-- the doorbell word last judged: SQ_TAIL of an SQ, CQ_HEAD of a CQ (R334) -/
  seen : Word := 0#32
  deriving DecidableEq, Repr

structure Window where
  lo : Word := 0#32
  hi : Word := 0#32
  pages : Word := 0#32
  ctrl : Word := 0#32
  deriving DecidableEq, Repr

/-- A fetched descriptor not yet completed (R345, R347): its OPCODE, the command, the verdict of its checks (status and
RESULT0), whether it has begun and waits, and whether a host-interface reset has come since, which discards its
completion (R330). -/
structure Fetched where
  opcode : Nat
  cmd : HostCmd
  verdict : Option (Nat × Word)
  begun : Bool
  order : Nat
  orphan : Bool := false
  deriving DecidableEq, Repr

structure HostIf where
  versHost : Word := 0#32
  enabled : Bool := false
  err : Nat := 0
  errIndex : Nat := 0
  wrErr : Bool := false
  ready : Bool := false
  dbLo : Word := 0#32
  dbHi : Word := 0#32
  dbPoll : Word := 10#32
  spLo : Word := 0#32
  spHi : Word := 0#32
  spCtrl : Word := 10#32
  sqs : Tab Ring := []
  cqs : Tab Ring := []
  wins : Tab Window := []
  sluice : Bool := false
  closes : Nat := 0
  drained : Bool := true
  linkUp : Bool := false
  subsys : Word := 0#32
  quenchedCq : Nat := 0
  fetched : List Fetched := []
  fetchOrder : Nat := 0
  lastServed : Nat := 0
  hostHb : Word := 0#32
  hbAt : Nat := 0
  changes : Nat := 0
  causeLast : Nat := 0
  /-- CHANGES as the status page last written shows it (R352) -/
  changesShown : Nat := 0
  /-- MSI-X table: bit v set while vector v is masked; and the pending bit array (R321, R352) -/
  msixMask : Nat := 0
  msixPend : Nat := 0
  heartbeat : Nat := 0
  ignored : Nat := 0
  /-- host memory as the device and the host have written it (unlisted bytes read 0) -/
  mem : Tab Byte := []
  deriving DecidableEq, Repr

/-- A long-operation slot (R367–R371). -/
structure LongOp where
  cmd : HostCmd
  opcode : Nat
  st : Nat
  items : Nat
  total : Nat
  r0 : Word
  r1 : Word
  r2 : Word
  status : Nat
  suspendBy : Option HostCmd
  cancelBy : Option HostCmd
  cancel : Bool
  doneOrder : Nat
  reserved : Bool
  progress : Bool
  checkpoint : Stamp
  pos : Nat
  aux : List Nat := []
  /-- samples copied for the trend archive, by log (R372) -/
  samples : List (Nat × Sample) := []
  deriving DecidableEq, Repr

structure LongOps where
  slots : Tab LongOp := []
  doneCount : Nat := 0
  /-- the trend archive in external flash, by log (R84) -/
  archive : Tab (List Sample) := []
  autoCompact : Bool := false
  compactHoldoff : Bool := false
  deriving DecidableEq, Repr

/-! ## Security (R373–R394) -/

structure OpKey where
  pub : List Byte
  mask : Nat
  highest : Nat
  deriving DecidableEq, Repr

structure Session where
  key : List Byte
  opKey : Nat
  limit : Nat
  lastUse : Nat
  highest : Nat
  seen : List Nat
  deriving DecidableEq, Repr

structure Envelope where
  min : Word
  max : Word
  rate : Word
  deriving DecidableEq, Repr

structure Security where
  keys : Tab OpKey := []
  sessions : Tab Session := []
  oemKey : Option (List Byte) := none
  techSecret : Option (List Byte) := none
  scNew : Option (List Byte) := none
  scPair : Option (List Byte) := none
  scCert : Option (List Byte) := none
  scAnchor : Option (List Byte) := none
  debug : Nat := 0
  envelopes : Tab Envelope := []
  envRefused : Nat := 0
  envLogged : Tab Nat := []
  authFails : Nat := 0
  failTimes : List Nat := []
  lockout : Bool := false
  lockoutAt : Nat := 0
  vaultLost : Bool := false
  dramEnc : Bool := false
  hostResetOk : Bool := false
  imageA : List Byte := []
  imageB : List Byte := []
  aValid : Bool := false
  bValid : Bool := false
  active : Nat := 0
  next : Nat := 0
  trial : Bool := false
  /-- slots that have run to confirmation; slot A still holds the bundle of the factory (log entry 17) -/
  confirmed : List Nat := [0]
  factory : Bool := true
  staging : Option Nat := none
  draws : Nat := 0
  deriving DecidableEq, Repr

/-! ## Lock-keeper and thermal (R395–R411) -/

structure LogEntry where
  seq : Nat
  wall : Word
  stamp : Stamp
  severity : Nat
  code : Nat
  unit : Word
  d0 : Word
  d1 : Word
  deriving DecidableEq, Repr

structure LockKeeper where
  cause : Nat := 1
  hostAbsent : Bool := true
  hostTimeout : Nat := 5000
  absences : Nat := 0
  brownout : Bool := false
  pfw : Bool := false
  pfi : Bool := false
  mainsPfw : Bool := false
  pfwEvents : Nat := 0
  pfwRound : Nat := 0
  /-- housekeeping round at which the warning came into force (log code 0x003) -/
  pfwStart : Nat := 0
  ramLog : List LogEntry := []
  seq : Nat := 0
  flush : List LogEntry := []
  suppressed : Nat := 0
  inSecond : Nat := 0
  cairnRound : Option Nat := none
  rounds : Nat := 0
  rails : Tab Word := []
  railRun : Tab Nat := []
  railOut : Tab Bool := []
  deriving DecidableEq, Repr

structure Thermal where
  raw : Tab Word := []
  last : Tab Word := []
  eff : Tab Word := []
  runs : Tab Nat := []
  failed : Nat := 0
  subst : Tab Word := []
  tdRun : Nat := 0
  tdSuspect : Bool := false
  t : Word := 0#32
  hottest : Nat := 0
  hotBefore : Tab Nat := []
  level : Nat := 0
  levelMax : Nat := 0
  warn : Bool := false
  hold : Bool := false
  episodes : Nat := 0
  warnEpisodes : Nat := 0
  deriving DecidableEq, Repr

/-! ## Non-volatile memory (R412–R429) -/

/-- A committed copy of a record (R414): sequence, payload, whether its PCRC fails, its page of the record store. -/
structure Copy where
  seq : Nat
  payload : List Byte
  bad : Bool := false
  page : Nat := 0
  deriving DecidableEq, Repr

/-- A write that waits for the controller or is under way (R409, R415, R421, R429). -/
inductive NvmWork
  | record (id : Nat) (payload : List Byte) (cmd : Option HostCmd)
  | counter (k : Nat) (cmd : Option HostCmd)
  | rawRead (page : Nat)
  | rawProgram (page : Nat) (bytes : List Byte)
  | rawErase (sector : Nat)
  deriving DecidableEq, Repr

structure Nvm where
  records : Tab (List Copy) := []
  counters : Tab Nat := []
  conflictLogged : List Nat := []
  cairn : List LogEntry := []
  scanDone : Bool := false
  mode : Nat := 0
  option : Nat := 0
  /-- RECOVERY of the configuration image, which waits for the end of the scan, and a scan that has ended since the last
  reset (R389) -/
  optionNext : Option Nat := none
  scanFresh : Bool := false
  discarded : Nat := 0
  completed : Nat := 0
  torn : Nat := 0
  reerased : Nat := 0
  badCopy : Nat := 0
  shutdown : Word := 0#32
  running : Option NvmWork := none
  /-- the second program of a write: COMMIT of a record, the mark of a raw page -/
  step2 : Bool := false
  /-- the sector whose erase the journal records and which has not ended (R420) -/
  erasing : Option Nat := none
  erasePaused : Bool := false
  /-- a compaction pass is at work, and the sectors it has freed (R427) -/
  compacting : Bool := false
  freed : Nat := 0
  /-- programmed pages of each sector of the record store, and the sector of the write point -/
  sectorUsed : Tab Nat := []
  writeSector : Nat := 0
  queue : List NvmWork := []
  hold : Bool := false
  heldIncs : Tab Nat := []
  retireTable : List Nat := []
  remapTable : Tab Nat := []
  /-- raw pages that are not erased, their 256 bytes -/
  rawPages : Tab (List Byte) := []
  rawCtrl : Word := 0#32
  rawErr : Bool := false
  rawTornFlag : Bool := false
  rawErased : Bool := false
  rawData : Tab Word := []
  deriving DecidableEq, Repr

/-! ## Power, resets, console -/

structure Power where
  coreUp : Bool := true
  fieldUp : Bool := true
  vdrvGood : Bool := true
  shutdown : Bool := false
  /-- the cause of the reset in progress, until boot (R436) -/
  pendingCause : Option Nat := some 1
  booted : Bool := false
  resetLow : Bool := false
  wdExpired : Bool := false
  osc32 : Bool := true
  /-- the Lock-keeper has still to calibrate all converters since the field die powered up (R216) -/
  calDue : Bool := true
  deriving DecidableEq, Repr

structure Towpath where
  baud : Nat := 115200
  baudPending : Bool := false
  services : List Nat := []
  tech : Bool := false
  challenge : Option (List Word × Nat × Nat) := none
  wrongRun : Nat := 0
  blocked : Bool := false
  blockFor : Nat := 0
  blockAt : Nat := 0
  enroll : Option (List Byte) := none
  confirmAt : Option Nat := none
  atb : Option AtbSource := none
  lastCmd : Nat := 0
  diagCh : Option Nat := none
  /-- the channel of a `coil … test` that has no reply yet, and whether its command has reached the channel (R448) -/
  coilWait : Option (Nat × Bool) := none
  deriving DecidableEq, Repr

/-- What the block puts on a wire, a console, the host bus or a pin during a step. -/
inductive Output
  | msix (vector : Nat)
  | console (ok : Bool) (word : String) (values : List Nat)
  | banner (cause : Nat)
  | frame (port : Nat) (bytes : List Byte)
  | kwela (trunk : Nat) (bytes : List Byte)
  | collision (trunk : Nat)
  /-- `tag` is the 802.1Q tag of a port with VLAN_EN (R255) -/
  | bacnet (port : Nat) (tag : Option Half) (kind : Nat) (values : List Nat)
  | modbus (port : Nat) (tag : Option Half) (bytes : List Byte)
  /-- the IP stack answers a frame of a kind to the next hop (R256) -/
  | ip (port : Nat) (tag : Option Half) (kind : FrameKind) (hop : Word) (bytes : List Byte)
  | busWrite (bus : Nat) (bytes : List Byte)
  | busRead (bus : Nat) (addr : Nat) (len : Nat)
  | sampleTrigger (adcs : Nat) (slot : Nat)
  /-- a gate pulse on TGn: its angle and its length in ac (R245) -/
  | gate (n : Nat) (angle : Nat) (len : Nat)
  /-- the duty that the ball of FANn's PWM carries from now on, in 0.1 % (R242, R249) -/
  | fanPwm (n : Nat) (duty : Nat)
  /-- nine SCL pulses and a STOP (R252) -/
  | busClear (bus : Nat)
  | rope (claimLow claimHigh : Half) (role : Nat) (items : List MirrorItem)
  | heartbeatSeen (unit : Nat)
  | readAll1
  | readData (v : Word)
  deriving DecidableEq, Repr

/-- The device, everything but the queue of commands. -/
structure Dev where
  tb : Timebase := {}
  link : DieLink := {}
  pe : PointEngine := {}
  loops : Loops := {}
  zones : Zones := {}
  clk : Clock := {}
  sched : Schedules := {}
  inp : Inputs := {}
  coil : Coils := {}
  out : Outputs := {}
  ports : Ports := {}
  kw : Kwela := {}
  belay : Belay := {}
  pair : Pair := {}
  integ : Integrity := {}
  hif : HostIf := {}
  lop : LongOps := {}
  sec : Security := {}
  lk : LockKeeper := {}
  th : Thermal := {}
  nvm : Nvm := {}
  power : Power := {}
  tow : Towpath := {}
  /-- how many free values the device has drawn (the model's own field) -/
  drawn : Nat := 0
  outbox : List Output := []
  deriving DecidableEq, Repr

/-- The block: the device and the commands that wait, first in, first out. -/
structure State where
  dev : Dev := {}
  pending : List Instr := []
  deriving DecidableEq, Repr

/-- The machine right after a power-on reset of both dies. -/
def State.reset : State := {}

/-- Reasons a step stops. The manual gives every command of this block an effect, so no meaning raises one. -/
inductive Fault
  /-- Raised by no meaning; safe: it could only stop a run. -/
  | none
  deriving DecidableEq, Repr

/-- Reasons a command has no meaning here. -/
inductive Refusal
  /-- Answered by an arm of `exec` for a command not modelled yet; safe: the run stops. -/
  | notModelled (mnemonic : String)
  deriving DecidableEq, Repr

end Sys2Proof.Machine
end

