-- ==== Sys2Proof/Machine/Ops.lean ====
section
/-! DEFINITION. Ops: the operations every family shares: running a meaning, stamps (R18), run time and wall time
(R60, R173), the log (R398, R399), free values, the outbox, claims (R8, R282), SOURCE (R42), unit codes (R314). -/
namespace Sys2Proof.Machine

/-- A meaning is a change of the device: the queue is not touched, the outbox starts empty. -/
def run (f : Dev → Dev) (s : State) : Host.Outcome State Fault Refusal :=
  .next { s with dev := f { s.dev with outbox := [] } }

/-- The same for a meaning that looks at the commands that wait behind it (R36). -/
def runWith (f : List Instr → Dev → Dev) (s : State) : Host.Outcome State Fault Refusal := run (f s.pending) s

def emit (o : Output) (d : Dev) : Dev := { d with outbox := d.outbox ++ [o] }

/-- The next free value (log entry 7). -/
def freeWord (d : Dev) : Word := Config.free d.drawn

def drew (d : Dev) : Dev := { d with drawn := d.drawn + 1 }

/-! ## Stamps -/

def stNat (s : Stamp) : Nat := s.cycle.toNat * 65536 + s.angle.toNat

/-- The stamp of a count of ac since cycle 0, taken round the wrap of the cycle counter (R18). -/
def stampOf (n : Nat) : Stamp := ⟨wd (n / 65536), hw n⟩

def stPlus (s : Stamp) (ac : Nat) : Stamp := stampOf (stNat s + ac)

def stMinus (s : Stamp) (ac : Nat) : Stamp := stampOf (stNat s + 281474976710656 - ac % 281474976710656)

/-- Stamp `a` is later than stamp `b`, in serial arithmetic (R18). -/
def later (a b : Stamp) : Bool :=
  let d := (a.cycle - b.cycle).toNat
  if d = 0 then decide (b.angle.toNat < a.angle.toNat) else decide (d < 2147483648)

/-- `a` minus `b` in ac, signed (R18, R25). -/
def stampDiff (a b : Stamp) : Int :=
  sgn 32 (a.cycle - b.cycle).toNat * 65536 + (a.angle.toNat : Int) - (b.angle.toNat : Int)

/-- The present stamp of the field die, where the timebase runs. -/
def fieldNow (d : Dev) : Stamp := ⟨d.tb.cycle, d.tb.angle⟩

def stMove (s : Stamp) (ac : Int) : Stamp := if 0 ≤ ac then stPlus s ac.toNat else stMinus s ac.natAbs

/-- The core die's stamp minus the field die's, in ac (R10, R11): 0 but while the link is down and in the slew after. -/
def coreAhead (d : Dev) : Int := d.link.coreOff + d.link.coreDrift * d.tb.angle.toNat / 65536

/-- The present stamp of the core die. -/
def now (d : Dev) : Stamp := if coreAhead d = 0 then fieldNow d else stMove (fieldNow d) (coreAhead d)

/-- A stamp of the core die as the field die counts it. -/
def fieldStamp (d : Dev) (s : Stamp) : Stamp := if coreAhead d = 0 then s else stMove s (-coreAhead d)

/-- `n` counts pass: a phase slew outside RELOCKING comes that much nearer its end, where the rate returns (R21). -/
def passCounts (n : Nat) (t : Timebase) : Timebase :=
  if t.slewLeft = 0 then t
  else if t.slewLeft ≤ n then { t with slewLeft := 0, slewK := 0, rate := t.base }
  else { t with slewLeft := t.slewLeft - n }

/-- The angle stands at a count of the present cycle, never further back, and does not move while the 25 MHz reference is
stopped (R19, R437). -/
def reach (s : Stamp) (d : Dev) : Dev :=
  if d.tb.refRuns && s.cycle == d.tb.cycle && decide (d.tb.angle.toNat < s.angle.toNat) then
    { d with tb := { passCounts (s.angle.toNat - d.tb.angle.toNat) d.tb with angle := s.angle } }
  else d

/-- A quotient rounded to the nearest integer. -/
def nearest (n m : Nat) : Nat := (2 * n + m) / (2 * m)

/-- The angle rate as the core die knows it: while the link is down, the mains frequency last reported (R10). -/
def coreRate (d : Dev) : Word := if d.link.coreLost then d.link.coreHz else d.tb.rate

/-- A duration in µs as ac at the core die's rate (R22). -/
def acOfUs (d : Dev) (t : Nat) : Nat := nearest (t * 65536 * F32.magNum (coreRate d)) (F32.magDen (coreRate d) * 1000000)

/-- A duration in µs as ac at the field die's rate (R22). -/
def acFieldUs (d : Dev) (t : Nat) : Nat := nearest (t * 65536 * F32.magNum d.tb.rate) (F32.magDen d.tb.rate * 1000000)

/-- A duration in units of 10 µs as ac at the present rate (R22), to the nearest ac as in the manual's examples. -/
def acOf10us (d : Dev) (t : Nat) : Nat :=
  nearest (t * 65536 * F32.magNum d.tb.rate) (F32.magDen d.tb.rate * 100000)

/-- A binary32 duration in ms as ac at the present rate (R22). -/
def acOfMs (d : Dev) (v : Word) : Nat :=
  if F32.neg? v then 0
  else nearest (F32.magNum v * 65536 * F32.magNum d.tb.rate) (F32.magDen v * F32.magDen d.tb.rate * 1000)

/-- ac as seconds at the core die's rate, binary32 (R22). -/
def secsOfAc (d : Dev) (ac : Int) : Word :=
  F32.div (F32.div (F32.ofInt ac) (F32.ofNat 65536)) (coreRate d)

/-! ## Run time and wall time -/

/-- Run-time seconds of the 25 MHz reference (R60), counted in housekeeping rounds of 10 ms (R395). Log entry 12. -/
def runSec (d : Dev) : Nat := d.lk.rounds / 100

/-- Month lengths (R171). -/
def monthLen (year month : Nat) : Nat :=
  if month = 2 then (if year % 4 = 0 then 29 else 28)
  else if month = 4 ∨ month = 6 ∨ month = 9 ∨ month = 11 then 30 else 31

/-- Days from 2000-01-01 to the first of `month` of `year` (R173). -/
def daysToMonth (year month : Nat) : Nat :=
  365 * year + (year + 3) / 4 + ((List.range (month - 1)).map fun i => monthLen year (i + 1)).sum

def daysTo (f : RtcFields) : Nat := daysToMonth f.year f.month + (f.day - 1)

/-- The fields do not form a calendar date (R172). -/
def oddDate (f : RtcFields) : Bool :=
  decide (f.month = 0 ∨ 12 < f.month ∨ f.day = 0 ∨ monthLen f.year f.month < f.day ∨ 23 < f.hour ∨ 59 < f.min ∨
    59 < f.sec)

def todOf (f : RtcFields) : Nat := f.hour * 3600 + f.min * 60 + f.sec

/-- Wall time (R173), counted on in run-time seconds while the date is odd (R172). -/
def wallTime (d : Dev) : Word :=
  if oddDate d.clk.now then d.clk.heldWall + wd (runSec d - d.clk.heldAt)
  else wd (daysTo d.clk.now * 86400 + todOf d.clk.now)

def rtcValid (d : Dev) : Bool := bit d.clk.status 7

/-- Wall time where 0 stands for an RTC that is not VALID (R336, R398). -/
def wallOrZero (d : Dev) : Word := if rtcValid d then wallTime d else 0#32

/-! ## Claims, sources, units -/

/-- A claim (R8, R282). -/
def claimWord (health pref unit : Nat) : Half := hw (health * 256 + pref % 16 * 16 + unit)

/-- Unit number of a cluster of this device (R297). -/
def unitOf (d : Dev) : Cluster → Nat
  | .a => if d.pair.upper then 3 else 1
  | .b => if d.pair.upper then 4 else 2

def track (d : Dev) : Cluster → Track
  | .a => d.belay.a
  | .b => d.belay.b

def setTrack (c : Cluster) (t : Track) (d : Dev) : Dev :=
  match c with
  | .a => { d with belay := { d.belay with a := t } }
  | .b => { d with belay := { d.belay with b := t } }

def clOther : Cluster → Cluster
  | .a => .b
  | .b => .a

def clNum : Cluster → Nat
  | .a => 0
  | .b => 1

/-- PREFERENCE in force for a cluster: PAIR_CONFIG's while paired, else BELAY_CFG's (R282, R297). -/
def prefOf (d : Dev) : Cluster → Nat
  | .a => if d.pair.enabled then d.pair.prefA else fld d.belay.cfg 7 4
  | .b => if d.pair.enabled then d.pair.prefB else fld d.belay.cfg 3 0

/-- A unit's claim as it would stand, from its HEALTH and the preference its heartbeats carry. -/
def fullClaim (d : Dev) (c : Cluster) : Half := claimWord (track d c).health (track d c).pref (unitOf d c)

/-- A unit's live claim; 0x0000 when it is withdrawn or silent (R284). -/
def liveClaim (d : Dev) (c : Cluster) : Half := if (track d c).live then (track d c).claim else 0#16

/-- The cluster that owns, if any (R287). -/
def ownerCluster (d : Dev) : Option Cluster :=
  if d.belay.ownerUnit = 0 then none
  else if d.belay.ownerUnit = unitOf d .a then some .a else some .b

/-- The owner of a computation: the higher claim; cluster A where no claim is live (log entry 13). -/
def computeOwner (d : Dev) : Cluster :=
  match ownerCluster d with
  | some c => c
  | none => .a

/-- SOURCE (R42). -/
def srcWord (cls lo : Nat) : Word := wd (cls * 268435456 + lo % 268435456)
def srcHost (sq : Nat) : Word := srcWord 1 sq
def srcField (off : Nat) : Word := srcWord 6 off
def srcLk : Word := srcWord 10 0
def srcEngine : Word := srcWord 11 0
def srcClass (s : Word) : Nat := fld s 31 28

/-- Owner word of the host in the resource table: one owner, class HOST (R241). -/
def ownHost : Word := srcHost 0

/-- Unit codes (R314). -/
def unitCode (cls n : Nat) : Nat := cls * 16777216 + n
def unitLoop (c : Cluster) (i : Nat) : Nat := unitCode 2 (4 * clNum c + i)
def unitZone (c : Cluster) : Nat := unitCode 3 (clNum c)
def unitPage (p : Nat) : Nat := unitCode 4 p
def unitAdc (c : Nat) : Nat := unitCode 5 c
def unitChan (ch : Nat) : Nat := unitCode 6 ch
def unitCore (c : Nat) : Nat := unitCode 7 c
def unitPipes : Nat := unitCode 8 0

def retired (d : Dev) (u : Nat) : Bool := d.integ.retired.contains u
def testing (d : Dev) (u : Nat) : Bool := (Tab.find d.integ.tests u).isSome

def sevInfo : Nat := 0
def sevNotice : Nat := 1
def sevWarning : Nat := 2
def sevFault : Nat := 3

/-! ## The log (R398, R399) -/

def capList (n : Nat) (l : List α) : List α := l.drop (l.length - n)

/-- Make a log entry: always in the RAM log, and in the Cairn log's pending pages from NOTICE up. NOTICE entries
beyond 64 in a second stay in the RAM log and are counted. While a power-fail warning is in force an entry reaches NVM
at once. -/
def logUnit (sev code unit : Nat) (d0 d1 : Word) (d : Dev) : Dev :=
  let e : LogEntry := ⟨(d.lk.seq + 1) % 4294967296, wallOrZero d, now d, sev, code, wd unit, d0, d1⟩
  let lk := { d.lk with seq := e.seq, ramLog := capList 16384 (d.lk.ramLog ++ [e]) }
  if sev = 0 then { d with lk := lk }
  else if sev = 1 ∧ 64 ≤ lk.inSecond then { d with lk := { lk with suppressed := lk.suppressed + 1 } }
  else
    let lk := { lk with inSecond := lk.inSecond + 1, cairnRound := some lk.rounds }
    let d := { d with hif := { d.hif with changes := (d.hif.changes + 1) % 65536 } }
    if lk.pfw then { d with lk := lk, nvm := { d.nvm with cairn := capList 4224 (d.nvm.cairn ++ [e]) } }
    else { d with lk := { lk with flush := lk.flush ++ [e] } }

def logE (sev code : Nat) (d0 d1 : Word) (d : Dev) : Dev := logUnit sev code 0 d0 d1 d

/-- An entry as its 32 bytes (R398). -/
def logBytes (e : LogEntry) : List Byte :=
  let b := wordsBytes [wd e.seq, e.wall, e.stamp.cycle,
    wd (e.severity * 268435456 + e.code * 65536 + e.stamp.angle.toNat), e.unit, e.d0, e.d1]
  b ++ wordBytes (crc32c b)

/-! ## Small list and option helpers -/

/-- Apply `f` to each of a list in order, threading the device. -/
def forEach (l : List α) (f : α → Dev → Dev) (d : Dev) : Dev := l.foldl (fun d x => f x d) d

def forRange (n : Nat) (f : Nat → Dev → Dev) (d : Dev) : Dev := forEach (List.range n) f d

/-- Count up, saturating at 16 bits: the manual's 16-bit saturating counts. -/
def up16 (n : Nat) : Nat := satAdd 65535 n 1

/-- The first of a list of faults that is one. -/
def firstSome (l : List (Option α)) : Option α := l.findSome? id

/-! ## DRAM regions (R61) -/

def mibOf (bytes : Nat) : Nat := (bytes + 1048575) / 1048576

/-- POINT, PRIO, SUB, LOOP, ZONE, VAULT, MIRROR in MiB. -/
def regionMib (p : Plan) : List Nat :=
  [mibOf (32 * (p.points + 4096)), mibOf (80 * p.commandable), mibOf (16 * p.subs), p.loopMib, mibOf (512 * p.zones), 4,
   if p.pair then 64 else 0]

def usableMib : Nat := if Config.dram2GiB then 1792 else 896

/-- First 4 KiB page of a region, 7 being TREND. -/
def regionPage (d : Dev) (i : Nat) : Nat :=
  256 * (((d.pe.plan.map regionMib).getD []).take i).sum

/-- Whether the die link carries values from the core die to the field die's outputs (R9–R11). -/
def linkOk (d : Dev) : Bool := !d.link.coreLost && !d.link.fieldLost

end Sys2Proof.Machine
end

