-- ==== Sys2Proof/Machine/Units.lean ====
section
/-! DEFINITION. Units: converters' urgent requests (R207, R208) and the dispatch of a unit's test (R314, R315). -/
namespace Sys2Proof.Machine

def adcOf (d : Dev) (c : Nat) : Adc := Tab.get {} d.inp.adcs c

def setAdc (c : Nat) (a : Adc) (d : Dev) : Dev :=
  { d with inp := { d.inp with adcs := Tab.set {} d.inp.adcs c a } }

/-- Fields of a result register (R210). -/
def resWord (value : Int) (valid ovr : Bool) (settle state : Nat) : Word :=
  wd (unsgn 24 value * 256 + at' 7 (b2n valid) + at' 6 (b2n ovr) + at' 2 (settle % 16) + state % 4)

def resValue (w : Word) : Int := sgn 24 (fld w 31 8)

/-- Rank of an urgent request among those of one count: coil diagnostics before IO_READ_NOW, each by index (R208). -/
def urgentRank : Urgent → Nat
  | .coilDiag ch => ch
  | .readNow n _ => 100 + n
  | .selfTest => 1000

/-- Requests wait in order of arrival, those of one count by rank. -/
def insertUrgent (u : Urgent) (s : Stamp) : List (Urgent × Stamp) → List (Urgent × Stamp)
  | [] => [(u, s)]
  | x :: l =>
    if x.2 == s && decide (urgentRank u < urgentRank x.1) then (u, s) :: x :: l else x :: insertUrgent u s l

/-- Invalid words after a change (R199). -/
def settleWords (filt : Word) : Nat := fld filt 18 16 + b2n (bit filt 23)

/-- An urgent request reaches a converter (R207, R208): an idle one starts it, a running slot is aborted, an urgent
conversion or a calibration makes it wait, at most eight of them. None where the queue is full. -/
def requestUrgent (c : Nat) (u : Urgent) (d : Dev) : Option Dev :=
  let a := adcOf d c
  match a.run with
  | .idle => some (setAdc c { a with run := .urgent u none, lastConf := none } d)
  | .slot s =>
    let w := Tab.get 1#32 a.res s
    some (setAdc c
      { a with
        run := .urgent u (some s), lastConf := none, aborted := up16 a.aborted,
        status := setBit a.status 8 true
        res := Tab.set 1#32 a.res s
          (resWord (resValue w) false (bit w 6) (settleWords (Tab.get 0#32 a.filt s)) (fld w 1 0)) } d)
  | _ =>
    if 8 ≤ a.urgents.length then none else some (setAdc c { a with urgents := insertUrgent u (fieldNow d) a.urgents } d)

/-- The urgent readings of a diagnostic cycle: the channel's node and the bank's (R207, R233). -/
def startDiag (ch : Nat) (d : Dev) : Dev :=
  let c := 2 + ch / 24
  if retired d (5 * 16777216 + c) then d
  else forRange 2 (fun _ d => (requestUrgent c (.coilDiag ch) d).getD d) d

/-- Frames wait in the queues of a core's ports while it is tested (R263, R314). -/
def holdCore (c : Nat) (d : Dev) : Dev :=
  let hold := fun (x : Port) => if x.isOpen && x.core == c then { x with held := true } else x
  { d with ports := { d.ports with ports := Tab.mapVals d.ports.ports fun _ x => hold x } }

def blankTest : UnitTest :=
  { byError := false, slot := none, console := false, retest := false, reinstate := none, scheduled := false }

/-- The Lock-keeper dispatches a unit's test (R314); a trigger for a unit whose test is running merges into it (R315),
keeping whoever waits for the result. The point engine takes no operations meanwhile (R65); an ADC path is tested by an
urgent request (R207), a coil channel runs the diagnostic cycle (R236), and a core's frames wait (R263). -/
def dispatchTest (u : Nat) (t : UnitTest) (d : Dev) : Dev :=
  match Tab.find d.integ.tests u with
  | some o =>
    let m := { o with slot := o.slot.or t.slot, console := o.console || t.console, retest := o.retest || t.retest,
                      reinstate := o.reinstate.or t.reinstate }
    { d with integ := { d.integ with tests := Tab.put d.integ.tests u m } }
  | none =>
    let d := { d with integ := { d.integ with tests := Tab.put d.integ.tests u t } }
    if u / 16777216 = 8 then { d with pe := { d.pe with testing := true } }
    else if u / 16777216 = 5 then (requestUrgent (u % 16777216) .selfTest d).getD d
    else if u / 16777216 = 6 then startDiag (u % 16777216) d
    else if u / 16777216 = 7 then holdCore (u % 16777216) d
    else d

/-- An error starts the test of its target unit (R312, R314); a retired unit is not tested. -/
def errorTest (u : Nat) (d : Dev) : Dev :=
  if retired d u then d else dispatchTest u { blankTest with byError := true } d

/-- The unit code as a name for results: the low 24 bits of the code, and its class. -/
def unitClass (u : Nat) : Nat := u / 16777216
def unitIndex (u : Nat) : Nat := u % 16777216

/-- The unit codes that name a unit (R314). Coil channels keep their own record and ADC paths are converters. -/
def unitKnown (u : Nat) : Bool :=
  let i := unitIndex u
  match unitClass u with
  | 1 => decide (i < 192)
  | 2 => decide (i < 8)
  | 3 => decide (i < 2)
  | 4 => decide (i < (if Config.dram2GiB then 458752 else 229376))
  | 5 => decide (i < 4)
  | 6 => decide (i < 48)
  | 7 => decide (i < 16)
  | 8 => decide (i = 0)
  | _ => false

end Sys2Proof.Machine
end

