-- ==== Sys2Proof/Machine/HostMem.lean ====
section
/-! DEFINITION. HostMem: host memory as the device reads and writes it (R324), the ring arithmetic (R339–R341, R350),
posting of event entries (R73, R86, R346) and completions (R346), interrupts (R352). -/
namespace Sys2Proof.Machine

/-! ## Host memory: cells in strictly rising address order, none of them 0 -/

def memRead (m : Tab Byte) (a : Nat) : Byte := Tab.get 0#8 m a

def memWrite (m : Tab Byte) (a : Nat) (v : Byte) : Tab Byte := Tab.set 0#8 m a v

def memWriteList (m : Tab Byte) : Nat → List Byte → Tab Byte
  | _, [] => m
  | a, b :: bs => memWriteList (memWrite m a b) (a + 1) bs

def memReadList (m : Tab Byte) (a n : Nat) : List Byte := (List.range n).map fun i => memRead m (a + i)

/-- The canonical form of host memory. -/
def memWf (m : Tab Byte) : Bool := Tab.wf m && m.all fun c => c.2 != 0#8

def hostWrite (a : Nat) (b : List Byte) (d : Dev) : Dev :=
  { d with hif := { d.hif with mem := memWriteList d.hif.mem a b } }

/-! ## Windows (R324) -/

def addr64 (lo hi : Word) : Nat := hi.toNat * 4294967296 + lo.toNat

def winBase (w : Window) : Nat := addr64 w.lo w.hi
def winSize (w : Window) : Nat := fld w.pages 20 0 * 4096

/-- A transfer lies wholly inside one enabled window with the permission (read: bit 1, write: bit 2). -/
def inWindow (d : Dev) (perm : Nat) (a n : Nat) : Bool :=
  d.hif.wins.any fun p =>
    bit p.2.ctrl 0 && bit p.2.ctrl perm && decide (winBase p.2 ≤ a) && decide (a + n ≤ winBase p.2 + winSize p.2)

def canRead (d : Dev) (a n : Nat) : Bool := inWindow d 1 a n
def canWrite (d : Dev) (a n : Nat) : Bool := inWindow d 2 a n

/-! ## Rings -/

def sqOf (d : Dev) (n : Nat) : Ring := Tab.get {} d.hif.sqs n
def cqOf (d : Dev) (n : Nat) : Ring := Tab.get {} d.hif.cqs n
def setSq (n : Nat) (r : Ring) (d : Dev) : Dev := { d with hif := { d.hif with sqs := Tab.set {} d.hif.sqs n r } }
def setCq (n : Nat) (r : Ring) (d : Dev) : Dev := { d with hif := { d.hif with cqs := Tab.set {} d.hif.cqs n r } }

def ringOn (r : Ring) : Bool := bit r.cfg 31
def depth (r : Ring) : Nat := 2 ^ fld r.cfg 4 0
def ringBase (r : Ring) : Nat := addr64 r.lo r.hi
def ringUsed (r : Ring) : Nat := (r.tail + depth r - r.head) % depth r

/-- Entries reserved on CQn (R340): commands fetched and not completed, long operations of SQn (n > 0) waiting for
their final completion, and 16 on CQ0. -/
def cqReserved (d : Dev) (n : Nat) : Nat :=
  (d.hif.fetched.filter fun f => decide (f.cmd.sq.val = n) && !f.orphan).length +
  (if n = 0 then 16 else (d.lop.slots.filter fun p => decide (p.2.cmd.sq.val = n) && p.2.reserved).length)

def cqRoom (d : Dev) (n : Nat) : Nat :=
  let r := cqOf d n
  depth r - 1 - ringUsed r - cqReserved d n

/-- An event may be posted to CQn (R73, R350): ring enabled, interface enabled, Sluice open, ring not quenched, and the
top eighth left free. CQ0 carries no events (R351). -/
def eventRoom (d : Dev) (n : Nat) : Bool :=
  let r := cqOf d n
  decide (n ≠ 0) && d.hif.enabled && ringOn r && !d.hif.sluice && (d.hif.quenchedCq / 2 ^ n % 2 == 0) &&
  decide (ringUsed r + cqReserved d n + 1 ≤ depth r * 7 / 8)

/-- Signal an MSI-X vector; one masked in the MSI-X table sets its pending bit instead (R352). -/
def signal (v : Nat) (d : Dev) : Dev :=
  if d.hif.msixMask / 2 ^ v % 2 = 1 then { d with hif := { d.hif with msixPend := d.hif.msixPend ||| 2 ^ v } }
  else emit (.msix v) d

/-- Write one 32-byte entry at the tail of CQn (R341, R342) and count it for coalescing (R352). `w5` and `w6` are words
0x14 (without PHASE) and 0x18. -/
def writeEntry (n : Nat) (ws : List Word) (w5 w6 : Word) (irqNow : Bool) (d : Dev) : Dev :=
  let r := cqOf d n
  let b := wordsBytes (ws ++ [setBit w5 8 r.phase, w6])
  let d := hostWrite (ringBase r + 32 * r.tail) (b ++ wordBytes (crc32c b)) d
  let t := (r.tail + 1) % depth r
  let k := r.counted + 1
  let fire := bit r.cfg 30 && (irqNow || decide (max 1 (fld r.coal 7 0) ≤ k))
  let d := setCq n { r with tail := t, phase := if t = 0 then !r.phase else r.phase,
                            counted := if fire then 0 else k } d
  if fire then signal n d else d

/-- An event entry (R86, R346). `hi5` is 0x14[31:24]. -/
structure Event where
  tag : Word
  r0 : Word
  r1 : Word
  r2 : Word
  hi5 : Nat
  w6 : Word
  deriving DecidableEq, Repr

/-- Post an event to CQn: STATUS, OPCODE 0 and SQ_ID 0xFF (R86). -/
def postEvent (n : Nat) (e : Event) (d : Dev) : Dev :=
  writeEntry n [e.tag, 0#32, e.r0, e.r1, e.r2] (wd (e.hi5 * 16777216 + 255)) e.w6 false d

/-- What a completed command returns (R346, R357). -/
structure Done where
  status : Nat
  r0 : Word := 0#32
  r1 : Word := 0#32
  r2 : Word := 0#32
  deriving DecidableEq, Repr

/-- A completion reaches the CQ of its SQ (R326), unless the host interface is not running: it is then discarded
(R330). -/
def postCompletion (opcode : Nat) (c : HostCmd) (x : Done) (d : Dev) : Dev :=
  let n := c.sq.val
  if d.hif.enabled && ringOn (cqOf d n) then
    writeEntry n [c.tag, wd (x.status % 65536 + opcode * 65536), x.r0, x.r1, x.r2] (wd n)
      (wd (sqOf d n).head) c.irqNow d
  else d

/-- Status codes (R357). -/
def stOk : Nat := 0x0000
def stStarted : Nat := 0x0001
def stSuspended : Nat := 0x0002
def stCancelled : Nat := 0x0003
def stDeferred : Nat := 0x0004
def stBadOpcode : Nat := 0x0100
def stBadFormat : Nat := 0x0101
def stCheckFail : Nat := 0x0102
def stVersion : Nat := 0x0103
def stAuthRequired : Nat := 0x0200
def stAuthFail : Nat := 0x0201
def stEnvelope : Nat := 0x0202
def stBusy : Nat := 0x0300
def stNotReady : Nat := 0x0301
def stNoCapacity : Nat := 0x0302
def stDeferTimeout : Nat := 0x0303
def stQuenched : Nat := 0x0304
def stDutyLimit : Nat := 0x0305
def stNotFound : Nat := 0x0400
def stConflict : Nat := 0x0401
def stHwFault : Nat := 0x0500
def stRetired : Nat := 0x0501
def stThermal : Nat := 0x0502

def ok : Done := { status := 0 }
def okWith (r0 : Word) (r1 : Word := 0#32) (r2 : Word := 0#32) : Done := { status := 0, r0 := r0, r1 := r1, r2 := r2 }
def fail (st : Nat) (r0 : Word := 0#32) (r1 : Word := 0#32) (r2 : Word := 0#32) : Done :=
  { status := st, r0 := r0, r1 := r1, r2 := r2 }

/-- BAD_FORMAT naming a byte of the descriptor, or of the buffer (R356). -/
def badField (off : Nat) : Done := fail stBadFormat (wd off)
def badBuf (off : Nat) : Done := fail stBadFormat (wd (2147483648 + off))

end Sys2Proof.Machine
end

