-- ==== Sys2Proof/Machine/Points.lean ====
section
/-! DEFINITION. Points: the point store (R37–R60), its changes, limits and alarms, trend capture (R67–R85), and the
commit of one operation. -/
namespace Sys2Proof.Machine

/-! ## KIND and QUALITY -/

def qGood : Nat := 0
def qStale : Nat := 1
def qSubst : Nat := 2
def qFault : Nat := 3
def qOver : Nat := 4
def qUncom : Nat := 5
def qEst : Nat := 6
def qHeld : Nat := 7

/-- Rank of a quality code, higher worse (R46); codes 8–15 are never written. -/
def qRank : Nat → Nat
  | 0 => 0 | 7 => 1 | 4 => 2 | 2 => 3 | 6 => 4 | 1 => 5 | 5 => 6 | 3 => 7
  | _ => 8

/-- Worst quality (R47). -/
def qWorst (a b : Nat) : Nat := if qRank a < qRank b then b else a

def kindInput (k : Nat) : Bool := k == 1 || k == 4 || k == 7 || k == 10
def kindAlways (k : Nat) : Bool := k == 2 || k == 5 || k == 8
def kindAnalog (k : Nat) : Bool := k == 1 || k == 2 || k == 3
def kindBinary (k : Nat) : Bool := k == 4 || k == 5 || k == 6
def kindMulti (k : Nat) : Bool := k == 7 || k == 8 || k == 9

/-- The value is a whole number (binary32). -/
def isWhole (v : Word) : Bool := F32.finite v && (F32.eq (F32.ofInt (F32.floor v)) v)

/-- The value lies within the range of its KIND (R44); `s` is the number of states, in
binary32. -/
def valueFits (kind : Nat) (s v : Word) : Bool :=
  if kindAnalog kind then F32.finite v
  else if kindBinary kind then F32.eq v F32.zero || F32.eq v F32.one
  else if kindMulti kind then isWhole v && F32.le F32.one v && F32.le v s
  else isWhole v && F32.le F32.zero v && F32.le v (F32.ofNat 16777215)

/-- S of a multistate point, in binary32: COV_INCREMENT holds it (R43, R44). -/
def statesOf (r : Rec) : Word := r.cov

/-! ## Predefined points (R38, R39) -/

def predefBase : Nat := 0x4FF000

/-- KIND, COMMANDABLE and VALUE at reset of the predefined point at an offset, none where the layout has no point. -/
def predefKind (o : Nat) : Option (Nat × Bool × Word) :=
  if o < 48 then some (1, false, 0#32)
  else if 0x100 ≤ o ∧ o < 0x110 then some (2, true, 0#32)
  else if 0x200 ≤ o ∧ o < 0x2C0 then
    (if o % 4 = 0 then some (2, true, 0#32) else if o % 4 = 3 then some (7, false, 0#32) else some (1, false, 0#32))
  else if 0x300 ≤ o ∧ o < 0x310 then some (2, true, 0x47000000#32)
  else if 0x340 ≤ o ∧ o < 0x350 then (if o % 2 = 0 then some (2, true, 0#32) else some (1, false, 0#32))
  else if 0x400 ≤ o ∧ o < 0x411 then some (1, false, 0#32)
  else if 0x420 ≤ o ∧ o < 0x42C then some (1, false, 0#32)
  else if 0x440 ≤ o ∧ o < 0x446 then some (1, false, 0#32)
  else if o = 0x500 ∨ o = 0x501 then some (1, false, 0#32)
  else none

/-- PRIO entry of a predefined commandable point: entries 0–87, in point order (log entry 14). -/
def predefPrio (o : Nat) : Nat :=
  if o < 0x200 then o - 0x100
  else if o < 0x300 then 16 + (o - 0x200) / 4
  else if o < 0x340 then 64 + (o - 0x300)
  else 80 + (o - 0x340) / 2

def noLimit : Word := 0x7FFFFFFF#32

def recQ (r : Rec) : Nat := r.status.toNat % 16
def stBit (r : Rec) (n : Nat) : Bool := r.status.toNat / 2 ^ n % 2 == 1
def setStBit (r : Rec) (n : Nat) (b : Bool) : Rec :=
  { r with status := hw (r.status.toNat - b2n (stBit r n) * 2 ^ n + b2n b * 2 ^ n) }
def setQ (r : Rec) (q : Nat) : Rec := { r with status := hw (r.status.toNat - recQ r + q % 16) }

def covPendingOf (r : Rec) : Bool := stBit r 4
def alarmOf (r : Rec) : Bool := stBit r 5
def guardedOf (r : Rec) : Bool := stBit r 6
def commandable (r : Rec) : Bool := stBit r 7
def outOfService (r : Rec) : Bool := stBit r 9

/-- The check over the record's own tuple (R48). -/
def checkOf (id : Nat) (r : Rec) : Half := pointCheck id r.value (recQ r) r.kind

def withCheck (id : Nat) (r : Rec) : Rec := { r with check := checkOf id r }

/-- The record's check verifies; quality codes 8–15 fail (R46, R51). -/
def checkOk (id : Nat) (r : Rec) : Bool := decide (recQ r < 8) && r.check == checkOf id r

def predefRec (o : Nat) : Option Rec :=
  (predefKind o).map fun k =>
    withCheck (predefBase + o)
      { value := k.2.2, check := 0#16, status := hw (5 + 128 * b2n k.2.1), stamp := ⟨0#32, 0#16⟩, kind := k.1,
        prio := 0, wall := 0#32, source := 0#32, cov := if k.1 = 7 then F32.ofNat 12 else 0#32,
        link := if k.2.1 then wd (2147483648 + predefPrio o) else noLimit }

def isPredef (id : Nat) : Bool := decide (predefBase ≤ id ∧ id < 0x500000)

/-- The record of a point, the predefined ones existing from reset (R39). -/
def recOf (d : Dev) (id : Nat) : Option Rec :=
  match Tab.find d.pe.recs id with
  | some r => some r
  | none => if isPredef id then predefRec (id - predefBase) else none

/-- N of the plan (R37). -/
def planN (d : Dev) : Nat := (d.pe.plan.map (·.points)).getD 0

/-- The failure of an access to an ID that names no point (R37). The word's bits 31:23 must be 0. -/
def idFailure (w : Nat) : Done :=
  if 8388608 ≤ w then badField 8
  else if w = 0x7FFFFF then fail stNotFound (wd w)
  else if 0x500000 ≤ w then badField 8
  else fail stNotFound (wd w)

/-- Priority array of a commandable record (R43, R57); the predefined ones start with their off values (R39). -/
def prioOf (d : Dev) (r : Rec) : Prio :=
  let i := fld r.link 19 0
  match Tab.find d.pe.prios i with
  | some p => p
  | none => { dflt := if 64 ≤ i ∧ i < 80 then 0x47000000#32 else 0#32 }

def setPrio (r : Rec) (p : Prio) (d : Dev) : Dev :=
  { d with pe := { d.pe with prios := Tab.put d.pe.prios (fld r.link 19 0) p } }

/-- The limit reference of a point (R43). -/
def limitRef (d : Dev) (r : Rec) : Word := if commandable r then (prioOf d r).limit else r.link

/-- The 4 KiB DRAM page of a record: POINT is the first region (R61, R62). -/
def pageOfPoint (d : Dev) (id : Nat) : Nat :=
  (if isPredef id then planN d + (id - predefBase) else id) * 32 / 4096

/-- The record as its 32 bytes (R40). -/
def recWords (r : Rec) : List Word :=
  [r.value, wd (r.check.toNat + r.status.toNat * 65536), r.stamp.cycle,
   wd (r.stamp.angle.toNat + r.kind * 65536 + r.prio * 16777216), r.wall, r.source, r.cov, r.link]

/-! ## Stages (R288, R293): coil channel 0–47, AO 48–63, TG 64–79, FAN 80–87, all transmit gates 999, one user output
point 1000 + id -/

/-- The stage of a predefined commandable point. -/
def stageOfOff (o : Nat) : Option Nat :=
  if 0x100 ≤ o ∧ o < 0x110 then some (48 + (o - 0x100))
  else if 0x200 ≤ o ∧ o < 0x2C0 ∧ o % 4 = 0 then some ((o - 0x200) / 4)
  else if 0x300 ≤ o ∧ o < 0x310 then some (64 + (o - 0x300))
  else if 0x340 ≤ o ∧ o < 0x350 ∧ o % 2 = 0 then some (80 + (o - 0x340) / 2)
  else none

/-- The Kwela device that lists a point as OUTPUT (R277), by address. -/
def kwOutput (d : Dev) (id : Nat) : Option Nat :=
  (d.kw.devices.find? fun p => p.2.listings.any fun l => l.1 == id && l.2).map Prod.fst

/-- The MODBUS_WRITE entries bound to a point (R259). -/
def modbusOuts (d : Dev) (id : Nat) : List Nat :=
  (d.ports.map.filter fun p => fld p.2.w0 31 28 == 4 && fld p.2.w0 22 0 == id).map Prod.fst

/-- The stage a point's resolved value goes to, if any. -/
def stageOf (d : Dev) (id : Nat) : Option Nat :=
  if isPredef id then stageOfOff (id - predefBase)
  else if (kwOutput d id).isSome || !(modbusOuts d id).isEmpty then some (1000 + id)
  else none

/-- Stage state: 0 NORMAL, 1 HELD, 2 NO_OWNER, 3 fail-safe. At reset every stage stands in NO_OWNER (R306). -/
def stageState (d : Dev) (k : Nat) : Nat :=
  if k < 1000 then Tab.get 2 d.belay.stages k
  else match Tab.find d.belay.stages k with
    | some v => v
    | none => Tab.get 2 d.belay.stages 999

/-- A stage enters a state; the gates as a whole take every output with them. -/
def setStage (k v : Nat) (d : Dev) : Dev :=
  if k = 999 then
    { d with belay := { d.belay with stages := Tab.set 2 (d.belay.stages.filter fun p => decide (p.1 < 999)) 999 v } }
  else if k < 999 then { d with belay := { d.belay with stages := Tab.set 2 d.belay.stages k v } }
  else if v = Tab.get 2 d.belay.stages 999 then { d with belay := { d.belay with stages := Tab.del d.belay.stages k } }
  else { d with belay := { d.belay with stages := Tab.put d.belay.stages k v } }

def stageHeld (d : Dev) (id : Nat) : Bool :=
  match stageOf d id with
  | some k => stageState d k == 1
  | none => false

/-! ## Ports and Kwela segments (R255, R266) -/

def portOf (d : Dev) (p : Nat) : Port := Tab.get {} d.ports.ports p
def setPort (p : Nat) (x : Port) (d : Dev) : Dev :=
  { d with ports := { d.ports with ports := Tab.set {} d.ports.ports p x } }
def modPort (p : Nat) (f : Port → Port) (d : Dev) : Dev := setPort p (f (portOf d p)) d

/-- A T1S port runs the KWELA service. -/
def t1sKwela (d : Dev) (p : Nat) : Bool :=
  let x := portOf d p
  x.isOpen && x.proto == 1 && bit (wordAt x.image 0) 7

/-- The open port of a Kwela trunk. -/
def kwPort (d : Dev) (t : Nat) : Option Nat :=
  let x := portOf d (8 + t)
  if x.isOpen && x.proto == 4 then some (8 + t)
  else if t = 14 ∧ t1sKwela d 6 then some 6
  else if t = 15 ∧ t1sKwela d 7 then some 7
  else none

/-- The trunk that a port serves Kwela on. -/
def kwTrunkOf (d : Dev) (p : Nat) : Option Nat := (List.range 16).find? fun t => kwPort d t == some p

/-! ## Events of the point engine (R73, R74, R86) -/

def alarmEvent (a : Alarm) : Event :=
  { tag := wd (0x02000000 + a.point), r0 := a.value,
    r1 := wd (at' 28 (b2n a.ackNeeded) + at' 24 a.toState + at' 20 a.fromState + at' 16 a.quality + a.check.toNat),
    r2 := a.stamp.cycle, hi5 := a.kind, w6 := wd (at' 16 a.priority + a.stamp.angle.toNat) }

def lostEvent (total since : Nat) (s : Stamp) : Event :=
  { tag := 0x03000000#32, r0 := wd total, r1 := wd since, r2 := s.cycle, hi5 := 0, w6 := wd s.angle.toNat }

def readyEvent (log : Nat) (t : Trend) : Event :=
  let s := (t.samples.getLast?.map (·.stamp)).getD ⟨0#32, 0#16⟩
  { tag := wd (0x04000000 + log), r0 := wd t.total, r1 := wd ((t.pos + t.capacity - 1) % max 1 t.capacity),
    r2 := s.cycle, hi5 := 0, w6 := wd (at' 16 (min 65535 t.sinceEvent) + s.angle.toNat) }

/-- Post `e` if the ring has room for an event, and then do `f`. -/
def tryPost (n : Nat) (e : Event) (f : Dev → Dev) (d : Dev) : Dev := if eventRoom d n then f (postEvent n e d) else d

def postAlarm (n : Nat) (a : Alarm) (d : Dev) : Dev :=
  tryPost n (alarmEvent a) (fun d => { d with pe := { d.pe with
    alarms := d.pe.alarms.map fun x => if x.seq = a.seq then { x with cq := none } else x } }) d

def postAlarms (n : Nat) (d : Dev) : Dev := forEach (d.pe.alarms.filter fun a => a.cq == some n) (postAlarm n) d

def postLost (n : Nat) (d : Dev) : Dev :=
  match Tab.find d.pe.lostSince n with
  | none => d
  | some (k, s) => tryPost n (lostEvent d.pe.lostTotal k s)
      (fun d => { d with pe := { d.pe with lostSince := Tab.del d.pe.lostSince n } }) d

def postReady (n log : Nat) (d : Dev) : Dev :=
  match Tab.find d.pe.trends log with
  | some t =>
    if t.ready && t.cq == n then
      tryPost n (readyEvent log t) (fun d => { d with pe := { d.pe with
        trends := Tab.upd d.pe.trends log fun t => { t with ready := false, sinceEvent := 0 } } }) d
    else d
  | none => d

/-! ## Trend capture (R81–R85) -/

/-- A log of both kinds keeps its samples in stamp order (R81). -/
def placeSample (mode : Nat) (s : Sample) (l : List Sample) : List Sample :=
  if mode = 3 then (l.filter fun x => !later x.stamp s.stamp) ++ s :: l.filter fun x => later x.stamp s.stamp
  else l ++ [s]

def trendPush (s : Sample) (t : Trend) : Trend :=
  if t.stopped then t
  else if t.stopWhenFull && decide (t.capacity ≤ t.samples.length) then { t with stopped := true }
  else
    let n := t.sinceEvent + 1
    { t with
      samples := capList t.capacity (placeSample t.mode s t.samples)
      pos := (t.pos + 1) % max 1 t.capacity
      total := if t.total = 4294967295 then 1 else t.total + 1
      sinceEvent := n
      ready := t.ready || (decide (t.notify ≠ 0) && decide (t.notify ≤ n)) }

/-- One sample is written; a threshold it reaches posts its event before the next sample (R85). -/
def pushLog (log : Nat) (s : Sample) (d : Dev) : Dev :=
  let d := { d with pe := { d.pe with trends := Tab.upd d.pe.trends log (trendPush s) } }
  match Tab.find d.pe.trends log with
  | some t => if t.ready then postReady t.cq log (postLost t.cq (postAlarms t.cq d)) else d
  | none => d

/-- Capture one sample, preceded by LOG_START on an empty log and by GAP after missed ones (R84). Both carry the VALUE,
QUALITY and CHECK of the sample that follows, and LOG_START its stamp (DESIGN CHOICE, log entry 163). -/
def captureLog (log type : Nat) (r : Rec) (stamp : Stamp) (merged : Nat) (d : Dev) : Dev :=
  match Tab.find d.pe.trends log with
  | none => d
  | some t =>
    let s : Sample :=
      { value := r.value, type := type, quality := recQ r, stamp := stamp, merged := merged, check := r.check }
    let d := { d with pe := { d.pe with trends := Tab.put d.pe.trends log { t with started := true, gap := none } } }
    let d := if t.started then d else pushLog log { s with type := 3, merged := 0 } d
    let d := match t.gap with
      | some g => pushLog log { s with type := 2, merged := 0, stamp := g } d
      | none => d
    pushLog log s d

/-! ## Changes of value (R71–R73) -/

def flagsOf (r : Rec) : Nat := r.status.toNat / 32 % 32

/-- The change test of R71 for one subscription; ROPED_SRC is no change. -/
def isChange (s : Sub) (r : Rec) : Bool :=
  recQ r != s.lastQuality || (flagsOf r &&& 23) != (s.lastFlags &&& 23) ||
  (if kindAnalog r.kind then
    (if F32.isZero r.cov then F32.ne r.value s.lastSent else F32.ge (F32.abs (F32.sub r.value s.lastSent)) r.cov)
   else if r.kind = 10 then
    let df := ((F32.floor r.value - F32.floor s.lastSent) % 16777216).toNat
    decide (df ≠ 0) && F32.ge (F32.ofNat df) r.cov
   else F32.ne r.value s.lastSent)

def sent (s : Sub) (r : Rec) : Sub :=
  { s with pending := false, merged := 0, fresh := false, lastSent := r.value, lastQuality := recQ r,
           lastFlags := flagsOf r }

def putSub (i : Nat) (s : Sub) (d : Dev) : Dev :=
  { d with pe := { d.pe with subs := Tab.put d.pe.subs i (.sub s) } }

def subAt (d : Dev) (i : Nat) : Option Sub :=
  match Tab.find d.pe.subs i with
  | some (.sub s) => some s
  | _ => none

def setHead (id : Nat) (i : Option Nat) (d : Dev) : Dev :=
  { d with pe := { d.pe with subHead := match i with
      | some i => Tab.put d.pe.subHead id i
      | none => Tab.del d.pe.subHead id } }

/-- A chain of subscriptions from an entry on; the last one holds its own index (R67). -/
def subChain (d : Dev) : Nat → Nat → List (Nat × Sub)
  | 0, _ => []
  | n + 1, i => match subAt d i with
    | some s => (i, s) :: (if s.next = i then [] else subChain d n s.next)
    | none => []

/-- The subscriptions of a point, in the order of its chain. -/
def subsOf (d : Dev) (id : Nat) : List (Nat × Sub) :=
  match Tab.find d.pe.subHead id with
  | some i => subChain d d.pe.subs.length i
  | none => []

/-- The entry whose NEXT names entry `i` of a point's chain. -/
def subBefore (d : Dev) (id i : Nat) : Option (Nat × Sub) := (subsOf d id).find? fun p => p.2.next == i && p.1 != i

/-- What named entry `i` of the chain names `n` instead: the entry before it, or the point's head; none ends the chain
there. -/
def renameSub (id i : Nat) (n : Option Nat) (d : Dev) : Dev :=
  match subBefore d id i with
  | some (j, t) => putSub j { t with next := n.getD j } d
  | none => setHead id n d

/-- A subscription takes entry `i`, at the end of its point's chain. -/
def linkSub (i : Nat) (s : Sub) (d : Dev) : Dev :=
  putSub i { s with next := i } (match (subsOf d s.point).getLast? with
    | some (j, t) => putSub j { t with next := i } d
    | none => setHead s.point (some i) d)

/-- Entry `i` leaves its chain and is free. -/
def unlinkSub (i : Nat) (s : Sub) (d : Dev) : Dev :=
  let d := renameSub s.point i (if s.next = i then none else some s.next) d
  { d with pe := { d.pe with subs := Tab.del d.pe.subs i } }

/-- A subscription moves to a free entry and keeps its contents and its place in its chain (R70). -/
def moveSub (i o : Nat) (s : Sub) (d : Dev) : Dev :=
  let d := renameSub s.point i (some o) d
  putSub o { s with next := if s.next = i then o else s.next } { d with pe := { d.pe with subs := Tab.del d.pe.subs i } }

/-- A loop is woken (R73); a wake of a loop already woken merges. -/
def wakeLoop (i : Nat) (d : Dev) : Dev :=
  { d with loops := { d.loops with fabric := Tab.upd d.loops.fabric i fun l => { l with woken := true } } }

/-- One subscription of a written point: a change pends, or adds to the merge count (R72); LOOP and TREND are delivered
at once (R73). -/
def noteSub (r : Rec) (i : Nat) (d : Dev) : Dev :=
  match Tab.find d.pe.subs i with
  | some (.sub s) =>
    if !(isChange s r) && !s.fresh then d
    else if s.cls = 3 then wakeLoop (fld s.target 18 0) (putSub i (sent s r) d)
    else if s.cls = 4 then captureLog (fld s.target 19 0) 1 r r.stamp (max 1 s.merged) (putSub i (sent s r) d)
    else if s.pending then putSub i { s with merged := satAdd 65535 s.merged 1, fresh := false } d
    else putSub i { s with pending := true, merged := 1, order := d.pe.order, fresh := false }
      { d with pe := { d.pe with order := d.pe.order + 1 } }
  | _ => d

/-- COV_PENDING follows the subscriptions (R72). -/
def refreshCov (id : Nat) (d : Dev) : Dev :=
  match recOf d id with
  | some r =>
    let p := (subsOf d id).any fun s => s.2.pending
    if covPendingOf r = p then d else { d with pe := { d.pe with recs := Tab.put d.pe.recs id (setStBit r 4 p) } }
  | none => d

def noteChange (id : Nat) (d : Dev) : Dev :=
  match recOf d id with
  | some r => refreshCov id (forEach ((subsOf d id).map Prod.fst) (noteSub r) d)
  | none => d

/-! ## Limits and alarms (R75–R80) -/

def limitOf (d : Dev) (ref : Word) : Option Limit :=
  if ref = noLimit then none
  else match Tab.find d.pe.subs (fld ref 22 0) with
    | some (.limit l) => some l
    | _ => none

def putLimit (ref : Word) (l : Limit) (d : Dev) : Dev :=
  { d with pe := { d.pe with subs := Tab.put d.pe.subs (fld ref 22 0) (.limit l) } }

def limitState (l : Limit) : Nat := fld l.w10 19 16

/-- Ports set in a limit block's PORT_MASK (R75). -/
def maskPorts (w : Word) : List Nat := (List.range 24).filter fun p => bit w (8 + p)

def alarmDone (a : Alarm) : Bool := a.acked && a.cq.isNone && a.ports.isEmpty

/-- A transition enters the alarm queue, in place of the lowest overwritable entry when it is full, or is lost and
counted (R79, R80). -/
def raiseAlarm (id fromState toState : Nat) (l : Limit) (r : Rec) (d : Dev) : Dev :=
  let need := if toState = 0 then bit l.w10 6 else if toState = 3 then bit l.w10 5 else bit l.w10 4
  let cq := if bit l.targets 5 then some (fld l.targets 4 0) else none
  let a : Alarm :=
    { seq := d.pe.alarmSeq, point := id, fromState := fromState, toState := toState, value := r.value,
      quality := recQ r, check := r.check, kind := r.kind, stamp := now d, priority := fld l.w10 27 20,
      ackNeeded := need, acked := !need, cq := cq, ports := maskPorts l.targets }
  let q := if d.pe.alarms.length < 4096 then some d.pe.alarms
    else (d.pe.alarms.find? alarmDone).map fun v => d.pe.alarms.filter fun x => x.seq != v.seq
  match q with
  | some q => { d with pe := { d.pe with alarms := q ++ [a], alarmSeq := d.pe.alarmSeq + 1 } }
  | none =>
    { d with pe := { d.pe with
      lostTotal := d.pe.lostTotal + 1
      lostSince := match cq with
        | some n => Tab.put d.pe.lostSince n (((Tab.find d.pe.lostSince n).map Prod.fst).getD 0 + 1, now d)
        | none => d.pe.lostSince } }

/-- The limit block enters a state: transition, ALARM bit, pending condition cleared (R77, R79). -/
def enterLimit (id : Nat) (ref : Word) (toState : Nat) (d : Dev) : Dev :=
  match limitOf d ref, recOf d id with
  | some l, some r =>
    let d := raiseAlarm id (limitState l) toState l r d
    let d := putLimit ref { l with w10 := setFld l.w10 19 16 toState, pendTo := none, pendSince := 0#32 } d
    { d with pe := { d.pe with recs := Tab.put d.pe.recs id (setStBit r 5 (toState != 0)) } }
  | _, _ => d

/-- The pending condition from the present state: the first row of *Alarm transitions* that holds, with its delay. -/
def limitRow (l : Limit) (r : Rec) : Option (Nat × Nat) :=
  let s := limitState l
  let dl := fld l.delays 15 0
  let dn := fld l.delays 31 16
  if s != 1 && s != 3 && bit l.w10 0 && F32.gt r.value l.high then some (1, dl)
  else if s != 2 && s != 3 && bit l.w10 1 && F32.lt r.value l.low then some (2, dl)
  else if s == 1 && F32.lt r.value (F32.sub l.high l.deadband) then some (0, dn)
  else if s == 2 && F32.gt r.value (F32.add l.low l.deadband) then some (0, dn)
  else none

/-- Evaluate a limit block at a write or a fabric tick (R77); a transition is followed by a fresh evaluation. STALE takes
no block out of FAULT, since it changes no alarm state (R78; log entry 164). -/
def evalLimit (id : Nat) (ref : Word) : Nat → Dev → Dev
  | 0, d => d
  | k + 1, d =>
    match limitOf d ref, recOf d id with
    | some l, some r =>
      let s := limitState l
      if s != 3 && recQ r == qFault && bit l.w10 2 then enterLimit id ref 3 d
      else if s == 3 && recQ r != qFault && recQ r != qStale then evalLimit id ref k (enterLimit id ref 0 d)
      else match limitRow l r with
        | none => if l.pendTo.isSome then putLimit ref { l with pendTo := none, pendSince := 0#32 } d else d
        | some (t, dl) =>
          let since := if l.pendTo = some t then l.pendSince.toNat else runSec d
          if since + dl ≤ runSec d then evalLimit id ref k (enterLimit id ref t d)
          else putLimit ref { l with pendTo := some t, pendSince := wd since } d
    | _, _ => d

/-- A limit block judged between writes: a transition that sets or clears ALARM is a change of value (R71). What is
delivered is the record as it stands, with its own stamp (R72; log entry 165). -/
def judgeLimit (id : Nat) (f : Dev → Dev) (d : Dev) : Dev :=
  let e := f d
  if (recOf e id).map alarmOf = (recOf d id).map alarmOf then e else noteChange id e

/-- Everything a stored write sets in motion on the point engine: limits, then changes of value. -/
def afterStore (id : Nat) (d : Dev) : Dev :=
  match recOf d id with
  | some r => noteChange id (evalLimit id (limitRef d r) 4 d)
  | none => d

/-! ## Storing -/

/-- Store a record with a check made for its tuple; WALL_SECONDS is the wall time of the last change of VALUE or
QUALITY (R40). A user point written is to be mirrored (R300). -/
def putRec (id : Nat) (old : Rec) (r : Rec) (d : Dev) : Dev :=
  let r := if r.value = old.value ∧ recQ r = recQ old then r else { r with wall := wallTime d }
  let d := { d with pe := { d.pe with recs := Tab.put d.pe.recs id r } }
  if d.pair.enabled && !isPredef id && !d.pair.dirtyPoints.contains id then
    { d with pair := { d.pair with dirtyPoints := d.pair.dirtyPoints ++ [id] } }
  else d

/-- A record read found wrong (R51): QUALITY FAULT with a new check, SOURCE POINT_ENGINE, the page tested. -/
def failRecord (id : Nat) (r : Rec) (d : Dev) : Dev :=
  let n := withCheck id { setQ r qFault with source := srcEngine }
  let d := { d with pe := { d.pe with checkFails := d.pe.checkFails + 1 } }
  errorTest (unitPage (pageOfPoint d id)) (afterStore id (putRec id r n d))

/-- Read a record for a consumer: none where it does not exist; the flag is false where its check failed, and the
record is then handled under R51. -/
def readRec (id : Nat) (d : Dev) : Option (Rec × Bool) × Dev :=
  match recOf d id with
  | none => (none, d)
  | some r => if checkOk id r then (some (r, true), d) else (some (r, false), failRecord id r d)

/-- A change of QUALITY made by the engine itself (R52): the record's check is verified first. -/
def engineQuality (id q : Nat) (src : Word) (d : Dev) : Dev :=
  match recOf d id with
  | none => d
  | some r =>
    if !checkOk id r then failRecord id r d
    else if stageHeld d id then { d with pe := { d.pe with kept := Tab.put d.pe.kept id q } }
    else afterStore id (putRec id r (withCheck id { setQ r q with source := src }) d)

/-! ## Priority arrays (R57–R60) -/

def lockActive (p : Prio) : Bool := bit (Tab.get 0#32 p.slots 6) 31
def lockState (p : Prio) : Bool := bit (Tab.get 0#32 p.slots 6) 30

/-- The value at level p, an active lock counting at level 6 (R58). -/
def levelValue (p : Prio) (l : Nat) : Option Word :=
  if l = 6 then (if lockActive p then some (F32.ofBool (lockState p)) else none) else Tab.find p.slots l

/-- The lowest-numbered level that is not NULL and its value; level 0 for the relinquish default (R58). -/
def resolve (p : Prio) : Nat × Word :=
  match (List.range 16).find? fun i => (levelValue p (i + 1)).isSome with
  | some i => (i + 1, (levelValue p (i + 1)).getD 0#32)
  | none => (0, p.dflt)

def degradedAt (p : Prio) (l : Nat) : Bool := decide (l ≠ 0) && p.degraded / 2 ^ (l - 1) % 2 == 1

def setDegraded (p : Prio) (l : Nat) (b : Bool) : Prio :=
  { p with degraded := p.degraded - b2n (degradedAt p l) * 2 ^ (l - 1) + b2n b * 2 ^ (l - 1) }

/-- Level p after a write of a quality (R59). -/
def writeSlot (p : Prio) (l : Nat) (v : Word) (q : Nat) : Prio :=
  if q = qFault ∨ q = qUncom then setDegraded { p with slots := Tab.del p.slots l } l false
  else setDegraded { p with slots := Tab.put p.slots l v } l (q != qGood && q != qOver)

/-- A written NaN pattern all ones is NULL (R57). -/
def relinquishSlot (p : Prio) (l : Nat) : Prio := setDegraded { p with slots := Tab.del p.slots l } l false

def hasMinTimes (p : Prio) : Bool := decide (p.minOn ≠ 0 ∨ p.minOff ≠ 0)

/-- The lock written when the resolved value changes to state s (R60). -/
def writeLock (d : Dev) (p : Prio) (s : Bool) : Prio :=
  let m := if s then p.minOn else p.minOff
  if m = 0 then { p with slots := Tab.del p.slots 6 }
  else
    let w := wd (2147483648 + b2n s * 1073741824 + (runSec d + m) % 1073741824)
    { p with slots := Tab.put p.slots 6 w }

/-- Resolve after a change of the array (R58–R60): the new record and array. `wrote` is the level just written with its
quality, if any. -/
def resolveRec (d : Dev) (r : Rec) (p : Prio) (wrote : Option (Nat × Nat)) : Rec × Prio :=
  let v := (resolve p).2
  let p := if hasMinTimes p && F32.ne v r.value then writeLock d p (F32.ne v F32.zero) else p
  let w := resolve p
  let q := match wrote with
    | some (l, wq) => if l = w.1 then wq else if degradedAt p w.1 then qEst else qGood
    | none => if degradedAt p w.1 then qEst else qGood
  (setQ { r with value := w.2, prio := w.1 } q, p)

/-- Hand the resolved value to the point's stage (R222, R288): not while out of service (R55), nor while the stage is
HELD, in NO_OWNER or in the fail-safe (R292, R11). -/
def deliver (id : Nat) (r : Rec) (claim : Half) (d : Dev) : Dev :=
  match stageOf d id with
  | some k =>
    if outOfService r || stageState d k != 0 then d
    else { d with pe := { d.pe with
      deliveries := d.pe.deliveries ++
        [{ id := id, value := r.value, quality := recQ r, check := r.check, stamp := r.stamp,
           claim := if claim = 0#16 then d.belay.owner else claim }] } }
  | none => d

/-- The shown quality stays HELD while the stage is HELD; the resolved one is kept (R292). -/
def showHeld (id : Nat) (r : Rec) (d : Dev) : Rec × Dev :=
  if stageHeld d id then (setQ r qHeld, { d with pe := { d.pe with kept := Tab.put d.pe.kept id (recQ r) } }) else (r, d)

/-- Store a resolved commandable point, deliver it and set its consequences in motion. -/
def storeResolved (id : Nat) (old r : Rec) (p : Prio) (claim : Half) (d : Dev) : Dev :=
  let d := setPrio old p d
  let h := showHeld id r d
  let n := withCheck id h.1
  deliver id n claim (afterStore id (putRec id old n h.2))

/-! ## The path of a failed check (R313) -/

def unitsOfSource (d : Dev) (id : Nat) (s : Word) : List Nat :=
  let lo := fld s 27 0
  let clusterOf := if fld s 23 20 = unitOf d .b then Cluster.b else Cluster.a
  match srcClass s with
  | 2 =>
    match Tab.find d.loops.fabric (fld s 18 0) with
    | some l => if l.prog.roped then [unitLoop .a l.lastEngine, unitLoop .b l.lastEngine]
        else [unitLoop clusterOf l.lastEngine]
    | none => []
  | 3 =>
    match Tab.find d.loops.fast (fld s 11 0) with
    | some l => [unitLoop .a l.lastEngine, unitLoop .b l.lastEngine]
    | none => []
  | 4 => [unitZone clusterOf]
  | 6 =>
    let o := lo % 65536
    if o < 48 then [unitAdc (o / 24)]
    else if 0x200 ≤ o ∧ o < 0x2C0 then
      (if o % 4 = 1 then [unitAdc (2 + (o - 0x200) / 4 / 24)]
       else if o % 4 = 2 then [unitChan ((o - 0x200) / 4)] else [])
    else []
  | 7 => [unitCore (portOf d ((kwPort d (fld s 19 16)).getD (8 + fld s 19 16))).core]
  | 8 => [unitCore (portOf d (fld s 26 22)).core]
  | 9 => [unitCore (portOf d (fld s 26 22)).core]
  | _ => [unitPage (pageOfPoint d id)]

def testSource (id : Nat) (s : Word) (d : Dev) : Dev := forEach (unitsOfSource d id s) errorTest d

/-! ## Committing an operation (R45, R50–R60) -/

inductive PRes
  | stored | discarded | notFound | conflict | checkFail | guarded | badFormat | envelope (limit : Word) | hwFault
  deriving DecidableEq, Repr

def envelopeOf (d : Dev) (id : Nat) : Option Envelope := Tab.find d.sec.envelopes id

/-- The limit a value breaks, if any (R383). -/
def envelopeBreak (d : Dev) (id : Nat) (v : Word) : Option Word :=
  match envelopeOf d id with
  | none => none
  | some e => if F32.lt v e.min then some e.min else if F32.gt v e.max then some e.max else none

def zWord (z : Zone) (off : Nat) : Word := Tab.get 0#32 z.words (off / 4)
def zPut (off : Nat) (v : Word) (z : Zone) : Zone := { z with words := Tab.set 0#32 z.words (off / 4) v }

/-- A field write of a SUBSTITUTED sensor goes to RAW and RAWQ of its zone (R150). -/
def divertWrite (z i : Nat) (v : Word) (q : Nat) (d : Dev) : Dev :=
  { d with zones := { d.zones with
    zones := Tab.upd d.zones.zones z fun r =>
      zPut (0xE0 + 8 * i) (setFld (zWord r (0xE0 + 8 * i)) 7 4 q) (zPut (0xDC + 8 * i) v r) } }

def refuseGuarded (w : Writer) (d : Dev) : Dev :=
  match w with
  | .remote p =>
    { d with ports := { d.ports with
      ports := Tab.put d.ports.ports p
        (let x := Tab.get {} d.ports.ports p
         { x with guardRefused := up16 x.guardRefused }) } }
  | _ => d

def countEnvelope (id : Nat) (d : Dev) : Dev :=
  let d := { d with sec := { d.sec with envRefused := up16 d.sec.envRefused } }
  let last := Tab.find d.sec.envLogged id
  if last = some (runSec d) then d
  else { d with sec := { d.sec with envLogged := Tab.put d.sec.envLogged id (runSec d) } }

/-- R52: the predecessor of a tuple whose VALUE comes from a writer or from resolution is verified; a failure is counted
and its page tested. -/
def verifyChange (id : Nat) (r : Rec) (d : Dev) : Dev :=
  if checkOk id r then d
  else errorTest (unitPage (pageOfPoint d id)) { d with pe := { d.pe with checkFails := d.pe.checkFails + 1 } }

/-- A write that has passed its check (R45, R52, R55–R59). -/
def storeWrite (op : PointOp) (v : Word) (q : Nat) (chk : Option Half) (prio : Nat) (r : Rec) (d : Dev) : PRes × Dev :=
  let id := op.id
  let isField := op.writer == .field
  let remote := match op.writer with | .remote _ => true | _ => false
  let overriding := remote || op.writer == .host
  let fits := valueFits r.kind (statesOf r) v
  if guardedOf r && !op.authorised && !(isField && kindInput r.kind) then (.guarded, refuseGuarded op.writer d)
  else if kindInput r.kind && outOfService r && isField then (.discarded, d)
  else if isPredef id && !commandable r && !isField && srcClass op.source != 4 &&
      !(remote && kindInput r.kind && outOfService r) then (.conflict, d)
  else if !fits && op.writer == .host then (.badFormat, d)
  else if isField && (Tab.find d.pe.divert id).isSome then
    match Tab.find d.pe.divert id with
    | some (z, i) => (.discarded, divertWrite z i v (if fits then q else qFault) d)
    | none => (.discarded, d)
  else if (stageOf d id).isNone && (envelopeBreak d id v).isSome && q != qFault && q != qUncom then
    (.envelope ((envelopeBreak d id v).getD 0#32), countEnvelope id d)
  else if commandable r then
    if prio = 0 ∨ 16 < prio ∨ prio = 6 then (.badFormat, d)
    else
      let d := verifyChange id r d
      let q := if fits then q else qFault
      let x := resolveRec d r (writeSlot (prioOf d r) prio v q) (some (prio, q))
      let n := { setStBit x.1 8 op.roped with source := op.source, stamp := op.stamp }
      (.stored, storeResolved id r n x.2 op.claim d)
  else
    let d := if chk.isSome then d else verifyChange id r d
    let q := if !fits then qFault else if kindInput r.kind && outOfService r && overriding then qOver else q
    let n := { setStBit (setQ { r with value := v } q) 8 op.roped with source := op.source, stamp := op.stamp }
    let n := match chk with
      | some c => if recQ n = q ∧ fits then { n with check := c } else withCheck id n
      | none => withCheck id n
    (.stored, afterStore id (putRec id r (if checkOk id n then n else withCheck id n) d))

/-- Relinquish one level and resolve (R58). -/
def storeRelinquish (op : PointOp) (prio : Nat) (r : Rec) (d : Dev) : PRes × Dev :=
  if !commandable r then (.conflict, d)
  else if prio = 0 ∨ 16 < prio ∨ prio = 6 then (.badFormat, d)
  else if guardedOf r && !op.authorised then (.guarded, refuseGuarded op.writer d)
  else
    let x := resolveRec d r (relinquishSlot (prioOf d r) prio) none
    let n := { setStBit x.1 8 false with source := op.source, stamp := op.stamp }
    (.stored, storeResolved op.id r n x.2 op.claim (verifyChange op.id r d))

/-- A service write leaves the list when another writer takes priority 1 of its point (R447). -/
def takeService (op : PointOp) (d : Dev) : Dev :=
  match op.act with
  | .write _ _ _ 1 =>
    if op.source = srcLk then d else { d with tow := { d.tow with services := d.tow.services.filter (· != op.id) } }
  | _ => d

/-- The lock ends and the array is resolved (R60). -/
def endLock (id : Nat) (stamp : Stamp) (r : Rec) (d : Dev) : Dev :=
  let p := prioOf d r
  if !commandable r || !lockActive p then d
  else
    let d := verifyChange id r d
    let x := resolveRec d r { p with slots := Tab.del p.slots 6 } none
    storeResolved id r { x.1 with stamp := stamp } x.2 0#16 d

/-- No write has come for STALE_TIMEOUT: QUALITY turns STALE, which is a change of value and changes no alarm state
(R78). -/
def turnStale (id : Nat) (r : Rec) (d : Dev) : Dev :=
  match limitOf d (limitRef d r) with
  | some l =>
    if l.staleAfter = 0#32 ∨ recQ r = qStale then d
    else if !checkOk id r then failRecord id r d
    else if stageHeld d id then { d with pe := { d.pe with kept := Tab.put d.pe.kept id qStale } }
    else noteChange id (putRec id r (withCheck id { setQ r qStale with source := srcEngine }) d)
  | none => d

/-- One operation, both pipelines agreeing (R64). -/
def commitOp (op : PointOp) (d : Dev) : PRes × Dev :=
  match recOf d op.id with
  | none => (.notFound, d)
  | some r =>
    match op.act with
    | .write v q chk prio =>
      let good := match chk with
        | some c => decide (q < 8) && c == pointCheck op.id v q r.kind
        | none => true
      if !good then (.checkFail, testSource op.id op.source d)
      else
        let x := storeWrite op v q chk prio r d
        if x.1 = .stored then (.stored, takeService op x.2) else x
    | .relinquish prio => storeRelinquish op prio r d
    | .quality q =>
      if op.writer == .field && kindInput r.kind && outOfService r then (.discarded, d)
      else match (if op.writer == .field then Tab.find d.pe.divert op.id else none) with
      | some (z, i) =>
        (.discarded, { d with zones := { d.zones with
          zones := Tab.upd d.zones.zones z fun r =>
            zPut (0xE0 + 8 * i) (setFld (zWord r (0xE0 + 8 * i)) 7 4 q) r } })
      | none => (.stored, engineQuality op.id q op.source d)
    | .lockEnd => (.stored, endLock op.id op.stamp r d)
    | .stale => (.stored, turnStale op.id r d)

/-- A loop's WRITE that was not stored counts (R98). -/
def countWriteFail (op : PointOp) (r : PRes) (d : Dev) : Dev :=
  match op.loop with
  | some ref =>
    let up := fun (l : Loop) => { l with writeFail := satAdd 4294967295 l.writeFail 1 }
    if r = .stored then d
    else if ref.fast then { d with loops := { d.loops with fast := Tab.upd d.loops.fast ref.idx up } }
    else { d with loops := { d.loops with fabric := Tab.upd d.loops.fabric ref.idx up } }
  | none => d

/-- An operation runs to its end. -/
def perform (op : PointOp) (d : Dev) : PRes × Dev :=
  let x := commitOp op d
  (x.1, countWriteFail op x.1 x.2)

/-! ## The input queue (R54, R65, R66) -/

/-- Of two operations on one point, the first to arrive goes first; at one count the lower SOURCE class, then the lower
SOURCE[27:0] (R54). -/
def opBefore (a b : PointOp) : Bool :=
  a.id == b.id && (later b.arrived a.arrived || a.arrived == b.arrived && decide (a.source.toNat < b.source.toNat))

def insertOp (op : PointOp) : List PointOp → List PointOp
  | [] => [op]
  | x :: l => if opBefore op x then op :: x :: l else x :: insertOp op l

/-- A write that arrives at the count of a STALE_TIMEOUT wins (R36, R54). -/
def outdated (op x : PointOp) : Bool := x.id == op.id && x.act == .stale && !later op.arrived x.arrived

def queueFull (d : Dev) : Bool := decide (65536 ≤ d.pe.queue.length)

def queueOp (op : PointOp) (d : Dev) : Dev :=
  if queueFull d then { d with pe := { d.pe with held := d.pe.held ++ [op] } }
  else { d with pe := { d.pe with queue := insertOp op (d.pe.queue.filter fun x => !outdated op x) } }

/-- An operation of the engine itself on a point. -/
def engineOp (id : Nat) (act : PointAct) (d : Dev) : PointOp :=
  { id := id, act := act, stamp := now d, source := srcEngine, writer := .inner }

/-- Queue an operation for the engine as it arrives. Behind 65,536 operations its writer holds it (R66). -/
def enqueue (op : PointOp) (d : Dev) : Dev := queueOp { op with arrived := now d } d

/-- Operations held by their writers take the room that the queue has. -/
def refill (d : Dev) : Dev :=
  if d.pe.held.isEmpty || queueFull d then d
  else
    let n := 65536 - d.pe.queue.length
    forEach (d.pe.held.take n) queueOp { d with pe := { d.pe with held := d.pe.held.drop n } }

/-- The operations on its point that go before an operation that arrives now are done first (R54). -/
def commitQueued (op : PointOp) (d : Dev) : Dev :=
  let mine := fun (x : PointOp) => x.id == op.id && !opBefore { op with arrived := now d } x
  if !d.pe.queue.any mine then d
  else forEach (d.pe.queue.filter mine) (fun x d => (perform x d).2)
    (refill { d with pe := { d.pe with queue := d.pe.queue.filter fun x => !mine x } })

/-- The engine takes operations: no signature test pauses it and a pipeline is in service (R65). -/
def pipesServe (d : Dev) : Bool := !d.pe.testing && (d.pe.p0 || d.pe.p1)

/-- A computation as the pipelines compare it: both agree, or the repeat commits and they are tested, or nothing commits
and they are tested (R64). One pipeline alone is not compared. -/
def compared (f : Dev → α × Dev) (d : Dev) : Option α × Dev :=
  let go := fun (d : Dev) => let x := f d; (some x.1, x.2)
  if !(d.pe.p0 && d.pe.p1) then go d
  else match d.pe.upset with
    | none => go d
    | some again =>
      let d := { d with pe := { d.pe with upset := none } }
      let r := if again then go d else (none, d)
      (r.1, errorTest unitPipes r.2)

/-- An operation of the device itself, now: while the pipelines are tested it waits, with none in service it is lost
(R65). -/
def engineNow (op : PointOp) (d : Dev) : Dev :=
  if d.pe.testing then enqueue op d
  else if !d.pe.p0 && !d.pe.p1 then d
  else (compared (perform op) (commitQueued op d)).2

/-- A write of the field die reaches the engine over the die link; while the link is down it waits for its return
(R254). -/
def enqueueDie (op : PointOp) (d : Dev) : Dev :=
  if d.link.coreLost then { d with pe := { d.pe with heldField := d.pe.heldField ++ [op] } } else enqueue op d

/-- Queue a write of a field-die or Lock-keeper point with its check made at capture (R49). -/
def enqueueField (off : Nat) (v : Word) (q : Nat) (stamp : Stamp) (src : Word) (d : Dev) : Dev :=
  let id := predefBase + off
  let k := ((recOf d id).map (·.kind)).getD 1
  (if srcClass src = 6 then enqueueDie else enqueue)
    { id := id, act := .write v q (some (pointCheck id v q k)) 0, stamp := stamp, source := src,
            writer := .field } d

/-- Queue a change of quality by the field side, value kept (R17, R197, R229). -/
def enqueueQuality (off q : Nat) (src : Word) (d : Dev) : Dev :=
  if srcClass src = 6 then
    enqueueDie { id := predefBase + off, act := .quality q, stamp := fieldNow d, source := src, writer := .field } d
  else enqueue { id := predefBase + off, act := .quality q, stamp := now d, source := src, writer := .field } d

/-- Relinquish by the device itself, at once. -/
def relinquishNow (id prio : Nat) (src : Word) (d : Dev) : Dev :=
  engineNow { id := id, act := .relinquish prio, stamp := now d, source := src, writer := .inner, authorised := true } d

end Sys2Proof.Machine
end

