-- ==== Sys2Proof/Machine/Deliver.lean ====
section
/-! DEFINITION. Deliver: what waits is posted or handed on, target by target, in the order of R74. -/
namespace Sys2Proof.Machine

/-- Insertion of `x` by key, and the list in rising key order. -/
def insertOn (k : α → Nat) (x : α) : List α → List α
  | [] => [x]
  | y :: ys => if k x ≤ k y then x :: y :: ys else y :: insertOn k x ys

def sortOn (k : α → Nat) (l : List α) : List α := l.foldr (insertOn k) []

/-! ## Events by class (R86, R28, R152, R189, R371) -/

def covEvent (id merged : Nat) (r : Rec) : Event :=
  { tag := wd (0x01000000 + id), r0 := r.value, r1 := wd (at' 16 r.status.toNat + r.check.toNat),
    r2 := r.stamp.cycle, hi5 := r.kind, w6 := wd (at' 16 merged + r.stamp.angle.toNat) }

/-- Code and content of a zone event as the zone stands at delivery (R152). `i` is the sensor, 8 for the air event, 9
for the model event. -/
def zoneEvent (zid i : Nat) (z : Zone) : Event :=
  let aq := fld (zWord z 0x14C) 27 24
  let st := z.at'
  if i < 4 then
    let sub := fld (zWord z (0xE0 + 8 * i)) 31 24 == 1
    { tag := wd (0x05000000 + zid), r0 := if sub then z.pred else zWord z (0xDC + 8 * i),
      r1 := wd (at' 24 (if sub then 1 else 2) + fld (zWord z (0x34 + 4 * i)) 22 0), r2 := st.cycle,
      hi5 := aq * 16 + i, w6 := wd (at' 16 (fld (zWord z 0x1F0) (8 * i + 7) (8 * i)) + st.angle.toNat) }
  else
    let code := if i = 8 then (if z.noAir then 3 else 4) else 5
    { tag := wd (0x05000000 + zid), r0 := zWord z 0x140, r1 := wd (at' 24 code + 0x7FFFFF), r2 := st.cycle,
      hi5 := aq * 16,
      w6 := wd (at' 16 (if i = 9 then fld (zWord z 0x14C) 31 30 else 0) + st.angle.toNat) }

def timeEvent (cause : Nat) (wall status : Word) : Event :=
  { tag := wd (0x06000000 + cause), r0 := wall, r1 := status, r2 := 0#32, hi5 := 0, w6 := 0#32 }

def tbStateCode : TbState → Nat
  | .acquiring => 0 | .relocking => 1 | .locked => 2 | .holdover => 3 | .lost => 4 | .synthetic => 5

def angleEvent (i : Nat) (w : AngleWait) : Event :=
  { tag := wd (0x09000000 + i), r0 := w.arg, r1 := wd (at' 16 (min 65535 w.count) + w.st), r2 := w.stamp.cycle,
    hi5 := b2n w.late, w6 := wd w.stamp.angle.toNat }

def lopPct (l : LongOp) : Nat := if l.total = 0 then 0 else min 100 (l.items * 100 / l.total)

def progressEventOf (slot : Nat) (l : LongOp) : Event :=
  { tag := wd (0x08000000 + at' 16 l.cmd.sq.val + slot), r0 := l.cmd.tag,
    r1 := wd (at' 16 l.opcode + at' 8 l.st + lopPct l), r2 := wd l.items, hi5 := 0, w6 := l.checkpoint.cycle }

/-! ## One completion ring (R73, R74) -/

/-- Deliver one pending COV: the record as it stands (R72), its check verified first (R51). -/
def postCov (n i : Nat) (d : Dev) : Dev :=
  match Tab.find d.pe.subs i with
  | some (.sub s) =>
    if !s.pending || !eventRoom d n then d
    else
      let x := readRec s.point d
      match recOf x.2 s.point with
      | some r =>
        match Tab.find x.2.pe.subs i with
        | some (.sub s') => refreshCov s.point (putSub i (sent s' r) (postEvent n (covEvent s.point s'.merged r) x.2))
        | _ => x.2
      | none => putSub i { s with pending := false, merged := 0 } d
  | _ => d

def pendingSubs (d : Dev) (cls target : Nat) : List Nat :=
  (sortOn (fun (p : Nat × Sub) => p.2.order) (d.pe.subs.filterMap fun p => match p.2 with
    | .sub s => if s.pending && s.cls == cls && fld s.target 4 0 == target then some (p.1, s) else none
    | _ => none)).map Prod.fst

/-- Which events of a zone wait: sensors 0–3, 8 air, 9 model (R152). -/
def zoneWaits (z : Zone) : List Nat :=
  let w := zWord z 0x1EC
  ((List.range 4).filter fun i => bit w i) ++ (if bit w 4 then [8] else []) ++ (if bit w 5 then [9] else [])

/-- Remake RCHECK over the record (R141). -/
def zoneCheck (z : Zone) : Word := crc32c (wordsBytes ((List.range 127).map fun i => Tab.get 0#32 z.words i))

def zoneSeal (z : Zone) : Zone := if z.sound then zPut 0x1FC (zoneCheck z) z else z

def zoneSent (i : Nat) (z : Zone) : Zone :=
  let z := zPut 0x1EC (setBit (zWord z 0x1EC) (if i < 4 then i else if i = 8 then 4 else 5) false) z
  zoneSeal (if i < 4 then zPut 0x1F0 (setFld (zWord z 0x1F0) (8 * i + 7) (8 * i) 0) z else z)

def postZone (n zid : Nat) (d : Dev) : Dev :=
  match Tab.find d.zones.zones zid with
  | some z =>
    if fld (zWord z 0x28) 20 16 = n ∧ bit (zWord z 0x28) 23 then
      forEach (zoneWaits z) (fun i d =>
        match Tab.find d.zones.zones zid with
        | some z => tryPost n (zoneEvent zid i z) (fun d => { d with zones := { d.zones with
            zones := Tab.upd d.zones.zones zid (zoneSent i) } }) d
        | none => d) d
    else d
  | none => d

def postTimes (n : Nat) (d : Dev) : Dev :=
  if fld d.clk.ctrl 15 11 = n then
    forEach d.clk.waiting (fun p d => tryPost n (timeEvent p.1 p.2.1 p.2.2)
      (fun d => { d with clk := { d.clk with waiting := Tab.del d.clk.waiting p.1 } }) d) d
  else d

def postAngle (n i : Nat) (d : Dev) : Dev :=
  match Tab.find d.tb.waiting i with
  | some w =>
    if w.cq = n then
      tryPost n (angleEvent i w) (fun d => { d with tb := { d.tb with waiting := Tab.del d.tb.waiting i } }) d
    else d
  | none => d

def postProgress (n slot : Nat) (d : Dev) : Dev :=
  match Tab.find d.lop.slots slot with
  | some l =>
    if l.progress && l.cmd.sq.val == n then
      tryPost n (progressEventOf slot l) (fun d => { d with lop := { d.lop with
        slots := Tab.upd d.lop.slots slot fun l => { l with progress := false } } }) d
    else d
  | none => d

/-- Deliver to CQn: queued alarms in sequence order, a waiting ALARM_LOST, pending COVs in the order in which they became
pending, then the events of the other classes (R74; log entry 15). -/
def flushCq (n : Nat) (d : Dev) : Dev :=
  if !eventRoom d n then d
  else
    let d := postLost n (postAlarms n d)
    let d := forEach (pendingSubs d 1 n) (postCov n) d
    let d := forEach (Tab.keys d.pe.trends) (postReady n) d
    let d := forEach (Tab.keys d.zones.zones) (postZone n) d
    let d := postTimes n d
    let d := forEach (Tab.keys d.tb.waiting) (postAngle n) d
    forEach (Tab.keys d.lop.slots) (postProgress n) d

/-- Every ring takes what it has room for. -/
def settle (d : Dev) : Dev := forRange 32 flushCq d

/-! ## One port (R73, R260, R265) -/

/-- Verify a record's check just before it is encoded (R260): on a failure nothing is sent, the port counts it and the
path named by SOURCE is tested. -/
def encodeOk (p id : Nat) (d : Dev) : Option Rec × Dev :=
  match recOf d id with
  | none => (none, d)
  | some r =>
    if checkOk id r then (some r, d)
    else
      let x := portOf d p
      (none, testSource id r.source (failRecord id r (setPort p { x with checkFail := up16 x.checkFail } d)))

end Sys2Proof.Machine
end

