-- ==== Sys2Proof/Machine/Host.lean ====
section
/-! DEFINITION. Host: how a host command runs: the checks made at its fetch (R345, R356, R378–R380), the order of its
ring (R347), the states in which it is turned away (R10, R65, R329, R373), its body, its completion (R346, R349). -/
namespace Sys2Proof.Machine

/-! ## What each command names (R356, R360–R365) -/

inductive BufUse | none | inn | out | optOut | both
  deriving DecidableEq, Repr

/-- The bits a command names in TARGET, COUNT and PARAM0–PARAM3, and its buffer. -/
structure Shape where
  target : Word := 0#32
  count : Word := 0#32
  p0 : Word := 0#32
  p1 : Word := 0#32
  p2 : Word := 0#32
  p3 : Word := 0#32
  buf : BufUse := .none
  deriving DecidableEq, Repr

def all1 : Word := 0xFFFFFFFF#32

/-- Shapes of the command tables; some depend on the command's own selector. -/
def shapeOf (op : Nat) (c : HostCmd) : Shape :=
  match op with
  | 0x0001 => { target := all1, p0 := 3#32 }
  | 0x0002 | 0x0003 => { p0 := 0xFFFFFFFE#32, p1 := 0xFFFFFF#32 }
  | 0x0004 | 0x0005 | 0x0006 | 0x0007 => { target := all1, p0 := 0x1F#32 }
  | 0x0101 => { target := all1, buf := .inn }
  | 0x0102 => { target := all1, buf := .optOut }
  | 0x0103 => { target := all1, p0 := all1, p1 := 0x1F#32 }
  | 0x0104 => { target := all1, p1 := 0x1F#32 }
  | 0x0105 => { count := all1, p0 := all1, p1 := all1, buf := .inn }
  | 0x0106 | 0x0107 => { target := all1, p0 := 7#32, p1 := all1 }
  | 0x0108 =>
    if fld c.p0 1 0 = 0 then { target := all1, p0 := 3#32, buf := .inn }
    else if fld c.p0 1 0 = 1 then { target := all1, p0 := 3#32 }
    else { target := all1, p0 := 3#32, p1 := 0xF#32, p2 := all1, p3 := 0xFFFF#32 }
  | 0x0110 => { count := all1, buf := .inn }
  | 0x0111 => { target := all1, count := all1, buf := .out }
  | 0x0201 | 0x0206 => { target := all1, buf := .inn }
  | 0x0202 | 0x0203 => { target := all1 }
  | 0x0204 => { target := all1, p0 := 1#32, buf := .out }
  | 0x0205 => { target := all1, count := all1, buf := .inn }
  | 0x0301 | 0x0303 => { target := all1, buf := .inn }
  | 0x0302 => { target := all1, p0 := 0xFFFF#32, buf := .optOut }
  | 0x0304 => { target := all1, count := all1, buf := .inn }
  | 0x0305 => { target := all1, buf := .out }
  | 0x0306 => { target := all1, count := all1, p0 := all1 }
  | 0x0402 => { p0 := 0xFF0F1F07#32, p1 := 0x1F3F3F#32 }
  | 0x0403 => { p0 := 0x3FF#32 }
  | 0x0404 | 0x0406 => { target := all1, buf := .inn }
  | 0x0405 => { target := all1, p0 := 3#32 }
  | 0x0407 => { target := all1, count := all1, buf := .inn }
  | 0x0408 => { target := all1, p0 := all1, p1 := all1, p2 := all1, p3 := all1 }
  | 0x0501 =>
    if bit c.p0 0 then { target := all1, p0 := 1#32 }
    else { target := all1, count := all1, p0 := 1#32, buf := .inn }
  | 0x0502 | 0x0505 => { target := all1 }
  | 0x0503 => { p0 := 0xF#32 }
  | 0x0504 | 0x0506 | 0x0507 | 0x0508 => { target := all1, p0 := all1, p1 := 0x1F#32 }
  | 0x0601 => { target := all1, count := all1, buf := .inn }
  | 0x0602 => { target := all1 }
  | 0x0603 => { target := all1, buf := .inn }
  | 0x0604 => { target := all1, p0 := 3#32 }
  | 0x0605 => { target := all1, buf := .out }
  | 0x0606 => { target := all1, count := all1, buf := .out }
  | 0x0701 => { target := all1, buf := .out }
  | 0x0702 => { target := all1, buf := .inn }
  | 0x0704 | 0x0705 | 0x0801 | 0x0803 => { target := all1 }
  | 0x0802 => { target := all1, p0 := all1, p1 := all1 }
  | 0x0804 => { count := all1, p0 := 1#32, p1 := all1, buf := .out }
  | 0x0805 => { buf := .out }
  | 0x0807 | 0x0808 => { buf := .inn }
  | 0x0901 => { target := all1, p0 := 0xFFF#32, buf := .both }
  | 0x0902 | 0x0907 => { target := all1 }
  | 0x0903 => { target := all1, buf := if c.target = 0x200#32 then .out else .inn }
  | 0x0904 => { target := all1, buf := .inn }
  | 0x0905 => { target := all1, buf := if c.target = 1#32 then .out else .both }
  | 0x0906 => { buf := .inn }
  | 0x0A01 => { target := all1, buf := .inn }
  | 0x0A02 => { target := all1, count := all1, p0 := all1, buf := .out }
  | 0x0A03 => { target := all1, count := all1, p0 := 1#32, buf := if bit c.p0 0 then .none else .out }
  | _ => {}

/-- The command catalogue (R355). -/
def catalogue : List Nat :=
  (List.range 9) ++
  [0x0101, 0x0102, 0x0103, 0x0104, 0x0105, 0x0106, 0x0107, 0x0108, 0x0110, 0x0111] ++
  [0x0201, 0x0202, 0x0203, 0x0204, 0x0205, 0x0206] ++
  [0x0301, 0x0302, 0x0303, 0x0304, 0x0305, 0x0306] ++
  [0x0401, 0x0402, 0x0403, 0x0404, 0x0405, 0x0406, 0x0407, 0x0408] ++
  [0x0501, 0x0502, 0x0503, 0x0504, 0x0505, 0x0506, 0x0507, 0x0508] ++
  [0x0601, 0x0602, 0x0603, 0x0604, 0x0605, 0x0606] ++
  [0x0701, 0x0702, 0x0703, 0x0704, 0x0705] ++
  [0x0801, 0x0802, 0x0803, 0x0804, 0x0805, 0x0806, 0x0807, 0x0808] ++
  [0x0901, 0x0902, 0x0903, 0x0904, 0x0905, 0x0906, 0x0907] ++
  [0x0A01, 0x0A02, 0x0A03]

def opClass (op : Nat) : Nat := op / 256

/-! ## Check 4: bytes that must be 0 -/

def oneShot (c : HostCmd) : Bool := c.fmt == 2 && decide (c.authSlot < 16)

/-- Offset of the first byte of a word at `off` with a bit outside `mask`. -/
def faultIn (off : Nat) (w mask : Word) : Option Nat :=
  ((List.range 4).find? fun i => decide (fld (w &&& ~~~mask) (8 * i + 7) (8 * i) ≠ 0)).map (off + ·)

/-- Offset of the first nonzero byte of `n` bytes of a number at `off`. -/
def faultNum (off n v : Nat) : Option Nat :=
  ((List.range n).find? fun i => decide (v / 256 ^ i % 256 ≠ 0)).map (off + ·)

/-- The first byte at fault (R345, R356). A command without a buffer has address and length 0, or just the trailer. -/
def fieldFault (op : Nat) (c : HostCmd) : Option Nat :=
  let s := shapeOf op c
  let buffer : Option Nat :=
    if oneShot c then
      (if c.bufLen < 64 then some 0x28 else if s.buf = .none ∧ c.bufLen ≠ 64 then some 0x28 else none)
    else if s.buf = .none then (faultNum 0x20 8 c.bufAddr).or (faultNum 0x28 4 c.bufLen)
    else none
  let auth : Option Nat :=
    if c.fmt = 1 then
      (faultNum 0x2C 1 c.authSlot).or ((faultNum 0x2D 3 c.authSeq).or
        (((List.range 12).find? fun i => decide (byteAt c.authTag i ≠ 0)).map (0x30 + ·)))
    else if oneShot c then ((List.range 12).find? fun i => decide (byteAt c.authTag i ≠ 0)).map (0x30 + ·)
    else none
  (faultIn 0x08 c.target s.target).or ((faultIn 0x0C c.count s.count).or ((faultIn 0x10 c.p0 s.p0).or
    ((faultIn 0x14 c.p1 s.p1).or ((faultIn 0x18 c.p2 s.p2).or ((faultIn 0x1C c.p3 s.p3).or (buffer.or auth))))))

/-! ## Check 5: the buffer lies in one window (R324) -/

def bufferOk (op : Nat) (c : HostCmd) (d : Dev) : Bool :=
  let s := shapeOf op c
  if c.bufLen = 0 then true
  else
    let rd := oneShot c || s.buf == .inn || s.buf == .both
    let wr := s.buf == .out || s.buf == .optOut || s.buf == .both
    d.hif.wins.any fun p =>
      bit p.2.ctrl 0 && (!rd || bit p.2.ctrl 1) && (!wr || bit p.2.ctrl 2) &&
      decide (winBase p.2 ≤ c.bufAddr) && decide (c.bufAddr + c.bufLen ≤ winBase p.2 + winSize p.2)

/-! ## Check 6: authorisation (R358, R375–R380) -/

def permPoints : Nat := 0
def permEnvelope : Nat := 1
def permImage : Nat := 2
def permRegister : Nat := 3
def permPair : Nat := 4
def permKeys : Nat := 5

def guardedPoint (d : Dev) (id : Nat) : Bool := ((recOf d id).map guardedOf).getD false

/-- The point a writing command names, if its form is such. -/
def pointOfCmd (op : Nat) (c : HostCmd) : Option Nat :=
  match op with
  | 0x0103 | 0x0104 => some c.target.toNat
  | 0x0504 => some (predefBase + 0x200 + 4 * c.target.toNat)
  | 0x0506 => some (predefBase + 0x100 + c.target.toNat)
  | 0x0507 => some (predefBase + 0x300 + c.target.toNat)
  | 0x0508 => some (predefBase + 0x340 + 2 * c.target.toNat)
  | _ => none

/-- The command is guarded as it stands (R358, R376). POINT_DEFINE and POINT_IMPORT entries are judged one by one. -/
def isGuarded (op : Nat) (c : HostCmd) (d : Dev) : Bool :=
  op == 0x0904 || op == 0x0907 || op == 0x0802 || op == 0x0808 || op == 0x0903 ||
  ((pointOfCmd op c).map (guardedPoint d)).getD false

/-- The permission an authorised command needs (R375). -/
def permOf (op : Nat) (c : HostCmd) (d : Dev) : Option Nat :=
  match op with
  | 0x0904 => some permEnvelope
  | 0x0907 => some permImage
  | 0x0802 => some permRegister
  | 0x0808 => some permPair
  | 0x0903 => some permKeys
  | 0x0101 | 0x0110 | 0x0201 | 0x0206 | 0x0404 => some permPoints
  | _ => if isGuarded op c d then some permPoints else none

/-- Descriptor bytes 0x00–0x2F (R344). -/
def headBytes (op : Nat) (c : HostCmd) : List Byte :=
  bytesLE op 2 ++ bytesLE (b2n c.irqNow) 1 ++ bytesLE c.fmt 1 ++
  wordsBytes [c.tag, c.target, c.count, c.p0, c.p1, c.p2, c.p3] ++ bytesLE c.bufAddr 8 ++ bytesLE c.bufLen 4 ++
  bytesLE c.authSlot 1 ++ bytesLE c.authSeq 3

def keyAllows (k : OpKey) (perm : Option Nat) : Bool :=
  match perm with
  | none => true
  | some p => k.mask / 2 ^ p % 2 == 1

/-- The reason an FMT 2 command is refused, none where it is authorised (R378–R380). -/
def authReason (op : Nat) (c : HostCmd) (d : Dev) : Option Nat :=
  if d.sec.lockout then some 4
  else if d.sec.vaultLost then some 1
  else if c.authSlot < 16 then
    match Tab.find d.sec.keys c.authSlot with
    | none => some 1
    | some k =>
      let m := Config.serial ++ headBytes op c ++ c.buf.take (c.bufLen - 64)
      if c.authSeq ≤ k.highest then some 4
      else if !Config.ecdsaP256Ok k.pub (Config.sha256 m) ((c.buf.drop (c.bufLen - 64)).take 64) then some 6
      else if !keyAllows k (permOf op c d) then some 7
      else none
  else if c.authSlot < 24 then
    match Tab.find d.sec.sessions (c.authSlot - 16) with
    | none => some 2
    | some s =>
      let m := headBytes op c ++ (if c.bufLen = 0 then [] else Config.sha256 c.buf)
      if s.lastUse + s.limit < runSec d then some 3
      else if c.authSeq = 0 ∨ s.seen.contains c.authSeq ∨ c.authSeq + 64 ≤ s.highest then some 4
      else if (Config.hmacSha256 s.key m).take 12 ≠ c.authTag then some 5
      else match Tab.find d.sec.keys s.opKey with
        | none => some 1
        | some k => if keyAllows k (permOf op c d) then none else some 7
  else some 1

/-- An accepted sequence is recorded; a session at 0xFF_FFFF closes (R380). -/
def acceptAuth (c : HostCmd) (d : Dev) : Dev :=
  if c.authSlot < 16 then
    { d with sec := { d.sec with keys := Tab.upd d.sec.keys c.authSlot fun k => { k with highest := c.authSeq } } }
  else
    let i := c.authSlot - 16
    let ss := Tab.upd d.sec.sessions i fun s =>
      let h := max s.highest c.authSeq
      { s with highest := h, lastUse := runSec d, seen := (c.authSeq :: s.seen).filter fun q => decide (h < q + 64) }
    { d with sec := { d.sec with sessions := if c.authSeq = 0xFFFFFF then Tab.del ss i else ss } }

/-- One more AUTH_REQUIRED or AUTH_FAIL result; the sixteenth AUTH_FAIL within 10 s starts the lockout (R380, R394).
Refusals made by the lockout itself do not count towards another. -/
def countAuth (isFail : Bool) (d : Dev) : Dev :=
  let d := { d with sec := { d.sec with authFails := up16 d.sec.authFails } }
  if !isFail || d.sec.lockout then d
  else
    let times := (d.sec.failTimes.filter fun t => decide (d.lk.rounds < t + 1000)) ++ [d.lk.rounds]
    if 16 ≤ times.length then
      logE sevWarning 0x23 (wd times.length) 0#32
        { d with sec := { d.sec with failTimes := [], lockout := true, lockoutAt := d.lk.rounds } }
    else { d with sec := { d.sec with failTimes := times } }

/-- An AUTH_REQUIRED that a command's own rules answer counts as well (R394). -/
def countRefusal (x : Done) (d : Dev) : Dev := if x.status = stAuthRequired then countAuth false d else d

/-! ## Checks 2–6 in order -/

/-- Revision in force on a ring (R323). -/
def fmtOk (c : HostCmd) (d : Dev) : Bool := c.fmt == 1 || (c.fmt == 2 && (sqOf d c.sq.val).rev == 2)

/-- The first failure of checks 2–6, with its RESULT0; an accepted authorisation is recorded. Without an operator key
KEY_ENROLL is refused whatever its FMT (R376). -/
def judge (op : Nat) (c : HostCmd) (d : Dev) : Option (Nat × Word) × Dev :=
  if !fmtOk c d then (some (stVersion, wd c.fmt), d)
  else if !catalogue.contains op then (some (stBadOpcode, wd op), d)
  else match fieldFault op c with
    | some off => (some (stBadFormat, wd off), d)
    | none =>
      if !bufferOk op c d then (some (stBadFormat, 0x20#32), d)
      else if opClass op == 9 && d.sec.vaultLost then (none, d)
      else if op = 0x0903 ∧ d.sec.keys = [] then (some (stAuthRequired, 0#32), countAuth false d)
      else if c.fmt = 2 then
        match authReason op c d with
        | some r => (some (stAuthFail, wd r), countAuth true d)
        | none => (none, acceptAuth c d)
      else if isGuarded op c d then (some (stAuthRequired, 0#32), countAuth false d)
      else (none, d)

/-! ## Fetched entries and the order of a ring (R347) -/

/-- A descriptor without its buffer's bytes, which are read when the command runs, and its length, which loses the
trailer of R379. -/
def bare (c : HostCmd) : HostCmd := { c with buf := [], bufLen := 0 }

def sameCmd (op : Nat) (c : HostCmd) (f : Fetched) : Bool := f.opcode == op && decide (bare f.cmd = bare c)

def addFetched (op : Nat) (c : HostCmd) (v : Option (Nat × Word)) (d : Dev) : Dev :=
  { d with hif := { d.hif with
      fetched := d.hif.fetched ++ [{ opcode := op, cmd := c, verdict := v, begun := false, order := d.hif.fetchOrder }]
      fetchOrder := d.hif.fetchOrder + 1 } }

/-- The fetched entry a command stands for. One that no doorbell poll has brought is fetched and checked now. -/
def takeFetched (op : Nat) (c : HostCmd) (d : Dev) : Option Fetched × Dev :=
  match d.hif.fetched.find? fun f => sameCmd op c f && !f.begun && f.verdict.isNone with
  | some f => (some f, d)
  | none =>
    if d.hif.fetched.any (sameCmd op c) then (none, d)
    else
      let j := judge op c d
      (some { opcode := op, cmd := c, verdict := j.1, begun := false, order := d.hif.fetchOrder },
       addFetched op c j.1 j.2)

/-- The oldest entry of a command leaves. -/
def removeFetched (op : Nat) (c : HostCmd) (d : Dev) : Dev :=
  { d with hif := { d.hif with fetched := d.hif.fetched.eraseP (sameCmd op c) } }

def markFirst (p : Fetched → Bool) : List Fetched → List Fetched
  | [] => []
  | f :: l => if p f then { f with begun := true } :: l else f :: markFirst p l

def markBegun (op : Nat) (c : HostCmd) (d : Dev) : Dev :=
  { d with hif := { d.hif with fetched := markFirst (fun f => sameCmd op c f && !f.begun) d.hif.fetched } }

/-- A command that the point engine's input queue would take (R65). -/
def pointCommand (op : Nat) : Bool :=
  opClass op == 1 || op == 0x0504 || op == 0x0506 || op == 0x0507 || op == 0x0508

/-- An earlier command of the ring has not completed (R347). -/
def earlier (f : Fetched) (d : Dev) : Bool :=
  d.hif.fetched.any fun g => g.cmd.sq == f.cmd.sq && decide (g.order < f.order)

/-- A command is held by its ring, or because the point engine takes no operations (R65). -/
def ringHeld (op : Nat) (f : Fetched) (d : Dev) : Bool := earlier f d || (pointCommand op && d.pe.testing)

/-- The states in which a command is turned away whole (R10, R65, R329, R373). -/
def gate (op : Nat) (d : Dev) : Option Done :=
  let k := opClass op
  if d.pe.plan.isNone && !(k == 0 || k == 7 || k == 8 || k == 9 || op == 0x0401 || op == 0x0402 || op == 0x0403) ||
     d.pe.plan.isNone && op == 0x0808 then some (fail stNotReady)
  else if k == 5 && d.link.coreLost then some (fail stHwFault)
  else if k == 9 && d.sec.vaultLost then some (fail stHwFault)
  else if pointCommand op && !d.pe.p0 && !d.pe.p1 then some (fail stHwFault (wd unitPipes))
  else none

/-! ## Running -/

/-- One completion: the entry leaves, and its completion is posted unless a host-interface reset has discarded it. -/
def postDone (op : Nat) (c : HostCmd) (x : Done) (d : Dev) : Dev :=
  let gone := ((d.hif.fetched.find? (sameCmd op c)).map (·.orphan)).getD false
  let d := removeFetched op c d
  if gone then d else postCompletion op c x d

/-- A descriptor that has failed its checks completes with the failure once it is the first of its ring (R345, R347). -/
def failNext (d : Dev) : Dev :=
  match d.hif.fetched.find? fun f => f.verdict.isSome && !earlier f d with
  | some f =>
    let v := f.verdict.getD (0, 0#32)
    let d' := { d with hif := { d.hif with fetched := d.hif.fetched.erase f } }
    if f.orphan then d' else postCompletion f.opcode f.cmd (fail v.1 v.2) d'
  | none => d

/-- Every such descriptor. -/
def failAll (d : Dev) : Dev := forRange d.hif.fetched.length (fun _ => failNext) d

/-- The command is done: events first (R349), then its completion (R346); descriptors that waited behind it and have
failed their checks follow. -/
def finish (op : Nat) (c : HostCmd) (x : Done) (d : Dev) : Dev := failAll (postDone op c x (settle d))

/-- The command as its body sees it: the buffer without the trailer of R379. -/
def trim (c : HostCmd) : HostCmd :=
  if oneShot c then { c with buf := c.buf.take (c.bufLen - 64), bufLen := c.bufLen - 64 } else c

/-- The core die runs (R408, R432, R437). -/
def coreRuns (d : Dev) : Bool := d.power.coreUp && !d.power.shutdown && d.tb.refRuns && !d.power.resetLow

/-- What follows a body: completion, or a wait. -/
def conclude (op : Nat) (c : HostCmd) (r : Option Done × Dev) : Dev :=
  match r.1 with
  | some x => finish op c x r.2
  | none => markBegun op c (settle r.2)

/-- A body as the pipelines of the point engine compute it: both agree, or the result of a repeat commits and they are
tested, or nothing commits and the command fails (R64). -/
def comparedBody (op : Nat) (body : HostCmd → Dev → Option Done × Dev) (c : HostCmd) (d : Dev) : Option Done × Dev :=
  if !pointCommand op then body c d
  else
    let r := compared (body c) d
    (r.1.getD (some (fail stHwFault (wd unitPipes))), r.2)

/-- Run a host command: its fetched entry's verdict first, then its ring's order, then its body. -/
def hostExec (op : Nat) (body : HostCmd → Dev → Option Done × Dev) (c : HostCmd) (d : Dev) : Dev :=
  if !coreRuns d then d
  else
    let t := takeFetched op c d
    match t.1 with
    | none => d
    | some f =>
      if ringHeld op f t.2 then t.2
      else if f.verdict.isSome then failAll t.2
      else match gate op t.2 with
        | some x => finish op c x t.2
        | none => conclude op c (comparedBody op body (trim c) t.2)

/-- A command that waited completes. -/
def completeCmd (op : Nat) (c : HostCmd) (x : Done) (d : Dev) : Dev := finish op c x d

/-- The command was authorised (R56, R380): accepted as FMT 2. -/
def authorised (c : HostCmd) : Bool := c.fmt == 2

/-- The buffer is shorter than the command needs (R356). -/
def shortBuf (c : HostCmd) (n : Nat) : Bool := decide (c.bufLen < n)

def outBuf (c : HostCmd) (b : List Byte) (d : Dev) : Dev := hostWrite c.bufAddr b d

end Sys2Proof.Machine
end

