-- ==== Sys2Proof/Machine/Angle.lean ====
section
/-! DEFINITION. Angle: the resource table (R240–R242) and the angle event table as written by its owners (R27–R33). -/
namespace Sys2Proof.Machine

/-! ## The resource table: owner by resource descriptor (R241) -/

def resPin (kind idx : Nat) : Nat := 0x01000000 + kind * 256 + idx
def resAngle (i : Nat) : Nat := 0x02000000 + i
def resSlot (c s : Nat) : Nat := 0x03000000 + 64 * c + s
def resTrigger (c k : Nat) : Nat := 0x04000000 + c * 16 + k
def resAlt : Nat := 0x05000000
def resAtb : Nat := 0x06000000
def resCal (c : Nat) : Nat := 0x07000000 + c

def ownerOf (d : Dev) (res : Nat) : Option Word := Tab.find d.out.owners res

/-- Why a claim or a release fails (R240). -/
inductive ClaimFail | busy (owner : Word) (res : Nat) | full
  deriving DecidableEq, Repr

def claimError : ClaimFail → Done
  | .busy o r => fail stBusy o (wd r)
  | .full => fail stNoCapacity

/-- Whether the owner may claim every resource of the list: the first that another holds, or a table of 512 entries
that would overflow. -/
def claimCheck (rs : List Nat) (owner : Word) (d : Dev) : Option ClaimFail :=
  match rs.find? fun r => (ownerOf d r).isSome && ownerOf d r != some owner with
  | some r => some (.busy ((ownerOf d r).getD 0#32) r)
  | none =>
    if 512 < d.out.owners.length + (rs.filter fun r => (ownerOf d r).isNone).length then some .full else none

def claimAll (rs : List Nat) (owner : Word) (d : Dev) : Dev :=
  { d with out := { d.out with owners := rs.foldl (fun t r => Tab.put t r owner) d.out.owners } }

def releaseCheck (rs : List Nat) (owner : Word) (d : Dev) : Option ClaimFail :=
  (rs.find? fun r => (ownerOf d r).isSome && ownerOf d r != some owner).map fun r =>
    .busy ((ownerOf d r).getD 0#32) r

def releaseAll (rs : List Nat) (d : Dev) : Dev :=
  { d with out := { d.out with owners := rs.foldl (fun t r => Tab.del t r) d.out.owners } }

/-! ## Entries -/

def aeNext (e : AngleEntry) : Bool := bit e.w0 29
def aeRepeat (e : AngleEntry) : Nat := fld e.w0 27 20
def aeAction (e : AngleEntry) : Nat := fld e.w0 19 16
def aeTarget (e : AngleEntry) : Nat := fld e.w0 15 0

/-- An active entry: ENABLE with an action; an entry of ACTION NONE is free and fires nothing (R27). -/
def aeEnabled (e : AngleEntry) : Bool := bit e.w0 31 && aeAction e != 0

def putEntry (i : Nat) (e : AngleEntry) (d : Dev) : Dev :=
  { d with tb := { d.tb with entries := Tab.put d.tb.entries i e } }

def dropEntry (i : Nat) (d : Dev) : Dev := { d with tb := { d.tb with entries := Tab.del d.tb.entries i } }

/-- The count at which an entry next asks for a dispatch: its start stamp until the coil of a RELAY_CLOSE has started,
else its occurrence (R30, R33). -/
def dueKey (e : AngleEntry) : Stamp := if e.started then e.occ else e.start

/-- A write is about to land on entry `i`: an occurrence on the landing count, or one before it that still waits for its
dispatch, belongs to the entry as it was (R31). -/
def displace (i : Nat) (d : Dev) : Dev :=
  match Tab.find d.tb.entries i with
  | some e =>
    if aeEnabled e && !(later (dueKey e) (fieldNow d)) then { d with tb := { d.tb with owed := d.tb.owed ++ [(i, e)] } }
    else d
  | none => d

/-- The lowest entry no one owns (R364). -/
def freeEntry (d : Dev) : Option Nat := (List.range 1024).find? fun i => (ownerOf d (resAngle i)).isNone

/-- The first count of an angle after a stamp. -/
def firstAfter (angle : Nat) (s : Stamp) : Stamp :=
  if s.angle.toNat < angle then ⟨s.cycle, hw angle⟩ else ⟨s.cycle + 1#32, hw angle⟩

/-- The first occurrence of a written entry after its landing count, and whether it is a one-shot already past, which
fires at once (R31). -/
def firstOcc (e : AngleEntry) (landing : Stamp) : Stamp × Bool :=
  if aeNext e then (firstAfter (aeTarget e) landing, false)
  else
    let s : Stamp := ⟨e.w1, hw (aeTarget e)⟩
    if later s landing then (s, false)
    else if aeRepeat e = 0 then (s, true)
    else
      let p := aeRepeat e * 32768
      (stPlus s (((stampDiff landing s).toNat / p + 1) * p), false)

/-- Operate time of a RELAY_CLOSE in ac (R33): the channel's motion time point while GOOD, else ARG; at most 262,143. -/
def operateAc (e : AngleEntry) (d : Dev) : Nat :=
  let id := predefBase + 0x200 + 4 * fld e.w2 5 0 + 2
  let ac := match recOf d id with
    | some r => if recQ r = qGood then acOfMs d r.value else acOf10us d (fld e.w3 15 0)
    | none => acOf10us d (fld e.w3 15 0)
  min 262143 ac

/-- The occurrence with its start stamp (R33); other actions start at the occurrence. -/
def withOcc (occ : Stamp) (e : AngleEntry) (d : Dev) : AngleEntry :=
  { e with occ := occ, start := if aeAction e = 4 then stMinus occ (operateAc e d) else occ, started := false }

/-- Write an entry that lands at the present count; the flag says that it fires at once, LATE. -/
def writeEntryAt (i : Nat) (w0 w1 w2 w3 : Word) (d : Dev) : Bool × Dev :=
  let e : AngleEntry :=
    { w0 := setBit w0 30 false, w1 := w1, w2 := w2, w3 := w3, occ := fieldNow d, start := fieldNow d, started := false }
  let f := firstOcc e (fieldNow d)
  (f.2 && aeEnabled e, putEntry i (withOcc f.1 e d) (displace i d))

/-- An entry of a block, claimed by a SOURCE. -/
def claimEntry (owner : Word) (d : Dev) : Option Nat × Dev :=
  match freeEntry d with
  | none => (none, d)
  | some i =>
    match claimCheck [resAngle i] owner d with
    | none => (some i, claimAll [resAngle i] owner d)
    | some _ => (none, d)

/-- An owner gives an entry back; an occurrence that still waits for its dispatch keeps it (R31, R32). -/
def releaseEntry (i : Nat) (d : Dev) : Dev := dropEntry i (releaseAll [resAngle i] (displace i d))

/-- The entry is written with ACTION NONE: it is free, and its registers hold the words written (R27; log entry 18). -/
def keepFreeWords (i : Nat) (w0 w1 w2 w3 : Word) (d : Dev) : Dev :=
  let d := releaseEntry i d
  if w0 = 0#32 ∧ w1 = 0#32 ∧ w2 = 0#32 ∧ w3 = 0#32 then d
  else putEntry i { w0 := setBit w0 30 false, w1 := w1, w2 := w2, w3 := w3, occ := fieldNow d, start := fieldNow d, started := false } d

/-- The bits of an entry that stand for LATE, set by an occurrence after its count. -/
def markLate (i : Nat) (d : Dev) : Dev :=
  { d with tb := { d.tb with
      entries := Tab.upd d.tb.entries i fun e => { e with w0 := setBit e.w0 30 true }
      flags := setBit d.tb.flags 4 true
      lateCount := d.tb.lateCount + 1 } }

/-- The fields of R27 and R28 that ANGLE_EVENT_SET refuses: offset in the descriptor. -/
def entryFault (w0 w2 : Word) : Option Nat :=
  let a := fld w0 19 16
  if bit w0 28 then some 0x10
  else if 8 ≤ a then some 0x10
  else if (a = 3 ∨ a = 4) ∧ 48 ≤ fld w2 5 0 then some 0x18
  else if a = 7 ∧ fld w2 4 0 = 0 then some 0x18
  else none

end Sys2Proof.Machine
end

