-- ==== Sys2Proof/Machine/Adc.lean ====
section
/-! DEFINITION. Adc: converters, sequences, triggers, the filter chain's words, references, urgent conversions,
calibration, and the conversion of universal inputs (R190–R216). -/
namespace Sys2Proof.Machine

/-! ## Slots -/

def slotCfg (a : Adc) (s : Nat) : Word := Tab.get 0#32 a.cfg s
def slotFilt (a : Adc) (s : Nat) : Word := Tab.get 0#32 a.filt s
def slotRes (a : Adc) (s : Nat) : Word := Tab.get 1#32 a.res s
def slotSource (w : Word) : Nat := fld w 5 0
def slotGain (w : Word) : Nat := fld w 20 18
def slotRef (w : Word) : Nat := fld w 17 16

/-- What a change of configuration compares (R199). -/
def confKey (cfg filt : Word) : Nat × Nat :=
  ((cfg &&& 0x1F003F#32).toNat, (filt &&& 0xE70F00#32).toNat)

/-- The next enabled slot from `s` on (R202). -/
def nextSlot (a : Adc) (s : Nat) : Option Nat :=
  (List.range 64).find? fun i => decide (s ≤ i) && bit (slotCfg a i) 31

/-- A slot starts: configuration writes that waited for it are in force, and a change settles; without one the running
stream goes on (R199, R214). -/
def startSlot (s : Nat) (a : Adc) : Adc :=
  let k := confKey (slotCfg a s) (slotFilt a s)
  if a.lastConf = some k then { a with run := .slot s, settle := 0 }
  else { a with run := .slot s, settle := settleWords (slotFilt a s), lastConf := some k, notch := none }

/-- The converter becomes idle: the pending trigger starts (R204). -/
def goIdle (a : Adc) : Adc :=
  match a.pending with
  | none => { a with run := .idle }
  | some p =>
    match nextSlot a p with
    | some t => startSlot t { a with pending := none }
    | none => { a with run := .idle, pending := none }

def startSeq (s : Nat) (a : Adc) : Adc :=
  match nextSlot a s with
  | some t => startSlot t a
  | none => goIdle a

/-- A trigger reaches a converter (R204); a retired converter takes none. -/
def triggerAdc (c start : Nat) (d : Dev) : Dev :=
  let a := adcOf d c
  if retired d (unitAdc c) then d
  else match a.run with
    | .idle => setAdc c (startSeq start a) d
    | _ =>
      if a.pending.isNone then setAdc c { a with pending := some start } d
      else setAdc c { a with trigLost := up16 a.trigLost, status := setBit a.status 9 true } d

/-- The configuration words of a slot as last written, those of a write that waits for its conversion among them (R214). -/
def slotWords (a : Adc) (s : Nat) : Word × Word := (Tab.find a.slotWait s).getD (slotCfg a s, slotFilt a s)

/-- A held slot write takes effect when the slot's conversion ends (R214). -/
def applySlotWait (s : Nat) (a : Adc) : Adc :=
  match Tab.find a.slotWait s with
  | none => a
  | some (c, f) =>
    { a with
      cfg := Tab.set 0#32 a.cfg s c, filt := Tab.set 0#32 a.filt s f, slotWait := Tab.del a.slotWait s }

def writeSlotRegs (s : Nat) (cfg filt : Word) (a : Adc) : Adc :=
  if a.run = .slot s then { a with slotWait := Tab.put a.slotWait s (cfg, filt) }
  else { a with cfg := Tab.set 0#32 a.cfg s cfg, filt := Tab.set 0#32 a.filt s filt }

/-- The slot ends; the sequence goes on or ends (R202). -/
def endSlot (s : Nat) (a : Adc) : Adc :=
  let last := bit (slotCfg a s) 30 || decide (63 ≤ s)
  let a := applySlotWait s a
  if last then goIdle a else startSeq (s + 1) a

/-! ## Words -/

/-- Reference state of a word (R197). -/
def refState (d : Dev) (a : Adc) (ref : Nat) : Nat :=
  if !d.inp.refReady then 1
  else if (ref = 1 ∧ !d.inp.extGood) ∨ (ref = 2 ∧ !d.inp.ratioGood) then 2
  else if !a.calibrated then 3
  else 0

def adcOffset (a : Adc) (g : Nat) : Int := sgn 24 (Tab.get 0#32 a.offset g).toNat
def adcGain (a : Adc) (g : Nat) : Word := Tab.get 0x3F800000#32 a.gain g

/-- (raw − OFFSETg)·GAINg rounded to the VALUE field, where raw is the mean of `count` sinc words that add up to `sum`, or the
limit of a clipped word (R198, R200). A result that the field cannot hold is not stated by the manual: a free value (log
entry 7). -/
def meanValue (d : Dev) (a : Adc) (g : Nat) (sum : Int) (count : Nat) (clip : Option Bool) : Int × Bool :=
  match clip with
  | some true => (8388607, false)
  | some false => (-8388608, false)
  | none =>
    let k := adcGain a g
    let n := (sum - adcOffset a g * count) * F32.num k
    let m : Int := F32.magDen k * count
    let v := (2 * n + m) / (2 * m)
    if -8388608 ≤ v ∧ v ≤ 8388607 then (v, false) else (sgn 24 (freeWord d).toNat, true)

/-- The same of a single word. -/
def wordValue (d : Dev) (a : Adc) (g : Nat) (raw : Int) (clip : Option Bool) : Int × Bool := meanValue d a g raw 1 clip

/-! ## Universal inputs (R191–R193) -/

def uiOf (d : Dev) (n : Nat) : Ui := Tab.get {} d.inp.uis n
def setUi (n : Nat) (u : Ui) (d : Dev) : Dev := { d with inp := { d.inp with uis := Tab.set {} d.inp.uis n u } }
def uiMode (u : Ui) : Nat := fld u.cfg 3 0
def uiSlot (u : Ui) : Nat := fld u.cfg 21 16
def uiAdc (n : Nat) : Nat := n / 24

/-- KIND of a UI mode (R191). -/
def uiKind (mode : Nat) : Nat := if mode = 5 then 4 else if mode = 6 then 10 else 1

/-- The root of the platinum equation within −200 to 850 °C, for R/RNOM = n/m (R193). In units of 1e-10,
5775·t² − 39083000·t + (r − 1)·1e10 = 0. -/
def platinum (n m : Int) : Word :=
  if m ≤ 0 then F32.nan
  else
    let disc : Int := 39083000 * 39083000 * m - 4 * 5775 * 10000000000 * (n - m)
    if disc < 0 then F32.nan
    else
      let s : Int := F32.isqrt 128 (disc.toNat * 2 ^ 120 / m.toNat) 0
      let t : Int := 39083000 * 2 ^ 60 - s
      let u : Int := 2 * 5775 * 2 ^ 60
      if t < -200 * u ∨ 850 * u < t then F32.nan else F32.rat t u.toNat

def k298 : Word := F32.rat 29815 100
def k273 : Word := F32.rat 27315 100

def thermistor (r rnom beta : Word) : Word :=
  F32.sub (F32.div F32.one (F32.add (F32.div F32.one k298) (F32.div (F32.ln (F32.div r rnom)) beta))) k273

/-- The engineering value of a word of a UI (R192, R193): Vin = VALUE·Vref / (G·2^23), then by mode. -/
def uiValue (d : Dev) (u : Ui) (cfg : Word) (v : Int) : Word :=
  let vref := if slotRef cfg = 1 then d.inp.vrefExt else 0x40200000#32
  let n := v * F32.num vref
  let m := F32.magDen vref * (2 ^ slotGain cfg * 8388608)
  let mode := uiMode u
  let scale : Int := if mode = 1 then 5 else if mode = 2 then 10 else if mode = 3 then 10000 else 1000
  let lin := fld u.cfg 7 6
  if mode = 1 ∨ mode = 2 ∨ lin = 0 then F32.rat (n * scale) m
  else if lin = 1 then platinum (n * scale * F32.magDen u.par0) (m * F32.num u.par0)
  else thermistor (F32.rat (n * scale) m) u.par0 u.par1

/-- Value and quality of a capture: FAULT for a clipped word or a result that is not finite (R193, R198). -/
def uiReading (d : Dev) (u : Ui) (cfg : Word) (v : Int) (clipped : Bool) : Word × Nat :=
  let x := uiValue d u cfg v
  (x, if clipped || !F32.finite x then qFault else qGood)

/-- The field die forwards a captured word to the UI's point (R213). -/
def captureUi (n : Nat) (x : Word) (q : Nat) (stamp : Stamp) (d : Dev) : Dev :=
  enqueueField n x q stamp (srcField n) (setUi n { uiOf d n with lastValue := x, lastQuality := q, lastStamp := stamp } d)

/-- The UI a capturing slot serves (R213). -/
def captureTarget (d : Dev) (c s : Nat) : Option Nat :=
  let w := slotCfg (adcOf d c) s
  if bit w 29 && decide (c < 2 ∧ slotSource w < 24) then
    let n := 24 * c + slotSource w
    let u := uiOf d n
    if decide (1 ≤ uiMode u ∧ uiMode u ≤ 4) && uiSlot u == s then some n else none
  else none

/-- Value, quality and stamp of the newest VALID word of a slot as the UI's point takes it (R192, R213); `how` is 2 for a
clipped word. -/
def slotReading (d : Dev) (c s n how : Nat) : Word × Nat × Stamp :=
  let a := adcOf d c
  let r := uiReading d (uiOf d n) (slotCfg a s) (resValue (slotRes a s)) (how == 2)
  (r.1, r.2, Tab.get ⟨0#32, 0#16⟩ a.stamps s)

/-- The die-link frame of the field die carries the newest VALID word of each capturing slot that no frame has carried yet;
the capture takes it (R210, R213). -/
def forwardSlot (c s : Nat) (d : Dev) : Dev :=
  let a := adcOf d c
  let f := Tab.get 0 a.unsent s
  match captureTarget d c s with
  | none => d
  | some n =>
    if f = 0 then d
    else
      let r := slotReading d c s n f
      captureUi n r.1 r.2.1 r.2.2
        (setAdc c { a with
          fresh := Tab.set 0 a.fresh s 0, unsent := Tab.set 0 a.unsent s 0
          res := Tab.set 1#32 a.res s (setBit (slotRes a s) 6 false) } d)

def forwardCaptures (d : Dev) : Dev := forRange 2 (fun c d => forRange 64 (forwardSlot c) d) d

/-- A word lands in a slot's result register; a half that the 16-bit path has latched of it is replaced (R210, R212). -/
def putRes (s : Nat) (w : Word) (a : Adc) : Adc :=
  { a with res := Tab.set 1#32 a.res s w, latchSlot := if a.latchSlot = some s then none else a.latchSlot }

/-- An invalid word, `left` of them still to come. -/
def landInvalid (c s left rs : Nat) (d : Dev) : Dev :=
  let a := adcOf d c
  setAdc c (putRes s (resWord (resValue (slotRes a s)) false (bit (slotRes a s) 6) left rs) { a with settle := left }) d

/-- The word that ends a slot's conversion: the mean of `count` sinc words, which a reference in fault keeps from being
VALID (R197, R198, R202, R211). -/
def landWord (c s : Nat) (sum : Int) (count : Nat) (clip : Option Bool) (stamp : Stamp) (d : Dev) : Dev :=
  let a := adcOf d c
  let cfg := slotCfg a s
  let rs := refState d a (slotRef cfg)
  let old := slotRes a s
  if rs ≠ 0 then setAdc c (endSlot s (putRes s (resWord (resValue old) false (bit old 6) 0 rs) a)) d
  else
    let v := meanValue d a (slotGain cfg) sum count clip
    let lost := decide (Tab.get 0 a.fresh s ≠ 0)
    let t := Tab.get (0, 0) a.sums s
    let how := if clip.isSome then 2 else 1
    let a := putRes s (resWord v.1 true (bit old 6 || lost) 0 0) { a with
      ovrCount := if lost then up16 a.ovrCount else a.ovrCount
      fresh := Tab.set 0 a.fresh s how
      unsent := Tab.set 0 a.unsent s how
      stamps := Tab.put a.stamps s stamp
      sums := Tab.put a.sums s (t.1 + v.1, t.2 + 1) }
    let d := setAdc c (endSlot s a) d
    if v.2 then drew d else d

/-! ### The notch stage (R200) -/

def notchBins (filt : Word) : Nat := 4 * 2 ^ fld filt 22 21

/-- The number of the bin that holds a stamp, and the boundary that a bin begins at. -/
def binOf (m : Nat) (s : Stamp) : Nat := stNat s / (65536 / m)
def binStart (m b : Nat) : Stamp := stampOf (b * (65536 / m))

/-- The sum and number of the sinc words in the `m` bins before a boundary, and a clipped one among them. -/
def window (m b : Nat) (x : Notch) : Int × Nat × Option Bool :=
  (x.bins.filter fun p => decide (b ≤ p.1 + m ∧ p.1 < b)).foldl (fun t p => (t.1 + p.2.1, t.2.1 + p.2.2.1, p.2.2.2.or t.2.2)) (0, 0, none)

/-- A sinc word joins its bin; bins older than one window go. -/
def addBin (m b : Nat) (raw : Int) (clip : Option Bool) (x : Notch) : Notch :=
  let t := Tab.get (0, 0, none) x.bins b
  { x with cur := b, bins := Tab.put (x.bins.filter fun p => decide (b ≤ p.1 + m)) b (t.1 + raw, t.2.1 + 1, clip.or t.2.2) }

/-- The stage passes a bin boundary: its window opens at the first after the sinc words of settling, with the last invalid
word; one cycle or more after that each boundary gives the mean of a cycle. -/
def passBoundary (c s m b : Nat) (x : Notch) (d : Dev) : Dev :=
  if 0 < (adcOf d c).settle then
    landInvalid c s 0 (refState d (adcOf d c) (slotRef (slotCfg (adcOf d c) s)))
      (setAdc c { adcOf d c with notch := some { x with opened := some b } } d)
  else
    let w := window m b x
    if decide (∃ o, x.opened = some o ∧ o + m ≤ b) && decide (w.2.1 ≠ 0) then
      landWord c s w.1 w.2.1 w.2.2 (binStart m b) d
    else d

/-- A sinc word of a notch slot: the boundaries since the last one are passed first, and then the word joins its bin. The
boundary is seen with the first sinc word after it (DESIGN CHOICE, log entry 174). -/
def notchWord (c s : Nat) (filt : Word) (raw : Int) (clip : Option Bool) (stamp : Stamp) (d : Dev) : Dev :=
  let m := notchBins filt
  let a := adcOf d c
  if 1 < a.settle then landInvalid c s (a.settle - 1) (refState d a (slotRef (slotCfg a s))) d
  else
    let b := binOf m stamp
    let x := a.notch.getD { cur := b }
    let d := setAdc c { a with notch := some x } d
    let d := if x.cur < b then passBoundary c s m (x.cur + 1) x d else d
    setAdc c { adcOf d c with notch := (adcOf d c).notch.map (addBin m b raw clip) } d

/-- The filter chain's next sinc word, in the slot in progress (R198, R199, R210, R211); between sequences the stream of a
notch slot runs on. -/
def sincWord (c : Nat) (raw : Int) (clip : Option Bool) (stamp : Stamp) (d : Dev) : Dev :=
  let a := adcOf d c
  match a.run with
  | .slot s =>
    if bit (slotFilt a s) 23 then notchWord c s (slotFilt a s) raw clip stamp d
    else if 0 < a.settle then landInvalid c s (a.settle - 1) (refState d a (slotRef (slotCfg a s))) d
    else landWord c s raw 1 clip stamp d
  | .idle =>
    match a.lastConf with
    | some k =>
      let m := notchBins (wd k.2)
      setAdc c { a with notch := a.notch.map (addBin m (binOf m stamp) raw clip) } d
    | none => d
  | _ => d

/-! ## Coil currents at the fabric tick (R218) -/

/-- Mean of the VALID words of a CHAN_I slot over the past cycle, in A, through a gain of 25 and the shunt in mΩ. -/
def currentOf (cfg : Word) (sum : Int) (n rshunt : Nat) : Word :=
  F32.rat (sum * 5 * 1000) (n * 2 * 2 ^ slotGain cfg * 8388608 * 25 * rshunt)

def coilCurrentTick (ch : Nat) (d : Dev) : Dev :=
  let b := ch / 6
  let c := 2 + b / 4
  let s := 16 * (b % 4) + ch % 6
  let a := adcOf d c
  let sum := Tab.get (0, 0) a.sums s
  let rs := fld (Tab.get {} d.coil.chans ch).cfg 31 22
  if sum.2 = 0 ∨ rs = 0 then d
  else
    let d := setAdc c { a with sums := Tab.del a.sums s, fresh := Tab.set 0 a.fresh s 0 } d
    enqueueField (0x200 + 4 * ch + 1) (currentOf (slotCfg a s) sum.1 sum.2 rs) qGood
      (Tab.get ⟨0#32, 0#16⟩ a.stamps s) (srcField (0x200 + 4 * ch + 1)) d

/-! ## Urgent conversions (R207–R209) -/

def urgentOf : AdcRun → Option (Urgent × Option Nat)
  | .urgent u s => some (u, s)
  | _ => none

/-- After an urgent conversion: the next waiting one, else the interrupted calibration, else the aborted slot from full
settling, else idle. -/
def afterUrgent (aborted : Option Nat) (a : Adc) : Adc :=
  match a.urgents with
  | u :: rest => { a with run := .urgent u.1 aborted, urgents := rest }
  | [] =>
    match a.calNext with
    | some g => { a with run := .cal g false, calNext := none }
    | none =>
      match aborted.or a.resume with
      | some s => startSlot s { a with lastConf := none, resume := none }
      | none => goIdle { a with lastConf := none }

/-- What an IO_READ_NOW returns of an urgent word (R209): engineering value and quality. A word that a reference holds
invalid reports FAULT, or UNCOMMISSIONED before the reference and the calibration are ready, and writes nothing. -/
def readNowWord (d : Dev) (a : Adc) (n : Nat) (raw : Int) (clip : Option Bool) : Word × Nat × Bool :=
  let u := uiOf d n
  let cfg := slotCfg a (uiSlot u)
  let rs := refState d a (slotRef cfg)
  let v := wordValue d a (slotGain cfg) raw clip
  let r := uiReading d u cfg v.1 clip.isSome
  (r.1, if rs = 0 then r.2 else if rs = 2 then qFault else qUncom, rs == 0)

def readNowDone (x : Word) (q : Nat) (s : Stamp) : Done :=
  okWith x (wd (at' 16 s.angle.toNat + q)) s.cycle

def urgentConversionEnd (c : Nat) (raw : Int) (clip : Option Bool) (stamp : Stamp) (d : Dev) : Dev :=
  let a := adcOf d c
  match urgentOf a.run with
  | none => d
  | some (u, aborted) =>
    match u with
    | .readNow n cmd =>
      let r := readNowWord d a n raw clip
      let d := setAdc c (afterUrgent aborted a) d
      let d := if r.2.2 then captureUi n r.1 r.2.1 stamp d else d
      match cmd with
      | some h => completeCmd 0x0502 h (readNowDone r.1 r.2.1 stamp) d
      | none =>
        emit (.console true "UI" [n, uiMode (uiOf d n), r.1.toNat, r.2.1, uiSlot (uiOf d n),
          (slotRes (adcOf d c) (uiSlot (uiOf d n))).toNat]) d
    | _ => setAdc c (afterUrgent aborted a) d

/-! ## Triggers -/

def adcPwmTrigger (b : Nat) (d : Dev) : Dev :=
  let c := 2 + b / 4
  let w := Tab.get 0#32 (adcOf d c).pwmTrig (b % 4)
  if bit w 31 then triggerAdc c (fld w 29 24) d else d

def adcTimerTrigger (c : Nat) (d : Dev) : Dev :=
  let w := (adcOf d c).timer
  if bit w 31 then triggerAdc c (fld w 29 24) d else d

/-! ## References (R196, R197) -/

/-- Each capturing UI point that depends on a reference gone bad is written once FAULT, value kept. -/
def faultUis (ref : Nat) (d : Dev) : Dev :=
  forRange 48 (fun n d =>
    let u := uiOf d n
    let cfg := slotCfg (adcOf d (uiAdc n)) (uiSlot u)
    if decide (1 ≤ uiMode u ∧ uiMode u ≤ 4) && (captureTarget d (uiAdc n) (uiSlot u) == some n) && slotRef cfg == ref
    then enqueueQuality n qFault (srcField n) (setUi n { u with lastQuality := qFault } d) else d) d

def setRefFault (d : Dev) : Dev :=
  forRange 4 (fun c d => let a := adcOf d c; setAdc c { a with status := setBit a.status 10 true } d) d

/-- The 10 ms comparison: VREF_EXT within ±2 % of ADC_VREF_EXT, VDD_FIELD within 4.75–5.25 V. -/
def refCheck (vext vfield : Word) (d : Dev) : Dev :=
  let nom := d.inp.vrefExt
  let ext := F32.le (F32.abs (F32.sub vext nom)) (F32.mul nom (F32.rat 2 100))
  let ratio := F32.le (F32.rat 475 100) vfield && F32.le vfield (F32.rat 525 100)
  let badExt := d.inp.extGood && !ext
  let badRatio := d.inp.ratioGood && !ratio
  let d := { d with inp := { d.inp with extGood := ext, ratioGood := ratio } }
  let d := if badExt || badRatio then setRefFault d else d
  let d := if badExt then faultUis 1 d else d
  if badRatio then faultUis 2 d else d

def refReady (d : Dev) : Dev := { d with inp := { d.inp with refReady := true } }

/-! ## Reads of result registers (R211, R212) -/

/-- A 32-bit read takes the word: OVR as it stands, then cleared. -/
def takeResult (c s : Nat) (d : Dev) : Word × Dev :=
  let a := adcOf d c
  let w := slotRes a s
  (w, setAdc c { a with res := Tab.set 1#32 a.res s (setBit w 6 false), fresh := Tab.set 0 a.fresh s 0 } d)

/-- The capturing slot that serves a UI point. -/
def captureSlot (d : Dev) (n : Nat) : Option (Nat × Nat) :=
  let s := uiSlot (uiOf d n)
  if decide (n < 48) && (captureTarget d (uiAdc n) s == some n) then some (uiAdc n, s) else none

/-- A fast-loop READ of a UI point takes the newest VALID word (R95, R210). -/
def takeField (id : Nat) (d : Dev) : Dev :=
  match captureSlot d (id - predefBase) with
  | some (c, s) => if predefBase ≤ id then (takeResult c s d).2 else d
  | none => d

def resultRegisterRead (c s : Nat) (d : Dev) : Dev :=
  let r := takeResult c s d
  emit (.readData r.1) r.2

/-- The 16-bit service path: the low half latches the high half, whose read takes the word. -/
def resultHalfRead (c s : Nat) (high : Bool) (d : Dev) : Dev :=
  let a := adcOf d c
  let w := slotRes a s
  if high then
    let d := if a.latchSlot = some s then (takeResult c s d).2 else d
    let a := adcOf d c
    emit (.readData (wd a.latch.toNat)) (setAdc c { a with latchSlot := none } d)
  else emit (.readData (wd (fld w 15 0))) (setAdc c { a with latch := hw (fld w 31 16), latchSlot := some s } d)

/-! ## Comparator inputs (R194) -/

/-- An accepted level: DRY_CONTACT writes its point, PULSE counts; nothing in the other modes. -/
def uiLevelAccepted (n : Nat) (closed : Bool) (stamp : Stamp) (d : Dev) : Dev :=
  let u := uiOf d n
  let inv := bit u.cfg 14
  if uiMode u = 5 then
    captureUi n (F32.ofBool (closed != inv)) qGood stamp (setUi n { u with level := closed } d)
  else if uiMode u = 6 then
    if closed != inv && (u.level != closed) then
      setUi n { u with level := closed, count := (u.count + 1) % 16777216, edge := some stamp } d
    else setUi n { u with level := closed } d
  else setUi n { u with level := closed } d

/-- At the fabric tick a changed count is written, stamped at the last counted edge. -/
def pulseTick (n : Nat) (d : Dev) : Dev :=
  let u := uiOf d n
  match u.edge with
  | some s => if uiMode u = 6 then captureUi n (F32.ofNat u.count) qGood s (setUi n { u with edge := none } d) else d
  | none => d

/-! ## Calibration (R215, R216) -/

/-- GAINg = 0.750·2^23 / (REF_INJ − OFFSETg). -/
def calGain (zero ref : Int) : Word := F32.div (F32.ofInt 6291456) (F32.ofInt (ref - zero))

def calOk (p : Word × Word) : Bool :=
  let o := sgn 24 p.1.toNat
  decide (-65536 ≤ o ∧ o ≤ 65536) && F32.le (F32.rat 95 100) p.2 && F32.le p.2 (F32.rat 105 100)

/-- The slot a running sequence stands at. -/
def slotOfRun : AdcRun → Option Nat
  | .slot s => some s
  | .urgent _ (some s) => some s
  | _ => none

/-- A converter's calibration starts, behind an urgent conversion under way: its triggers pend, and a sequence in progress
goes on from its slot after it. -/
def startCal (c : Nat) (d : Dev) : Dev :=
  let a := adcOf d c
  let a := { a with calNew := [], lastConf := none, notch := none, resume := slotOfRun a.run }
  setAdc c (match a.run with
    | .urgent u _ => { a with run := .urgent u none, calNext := some 0 }
    | _ => { a with run := .cal 0 false }) d

def jobOf (d : Dev) (c : Nat) : Option CalJob := d.inp.cals.find? fun j => j.todo.head? == some c

def mapJob (c : Nat) (f : CalJob → CalJob) (d : Dev) : Dev :=
  { d with inp := { d.inp with cals := d.inp.cals.map fun j => if j.todo.head? == some c then f j else j } }

/-- The converter is done, or has failed: the job moves to its next converter. -/
def nextCal (c : Nat) (good : Bool) (d : Dev) : Dev :=
  let next := (jobOf d c).bind fun j => j.todo.tail.head?
  let d := releaseAll [resCal c] (mapJob c (fun j =>
    { j with todo := j.todo.tail, done := if good then j.done + 2 ^ c else j.done, failed := j.failed || !good }) d)
  let a := adcOf d c
  let d := setAdc c (afterUrgent none { a with calNext := none }) d
  match next with
  | some n => startCal n d
  | none => d

/-- The operation that calibrates a converter is SUSPENDED (R215, R372). -/
def calHeld (c : Nat) (d : Dev) : Bool :=
  match (jobOf d c).bind (·.slot) with
  | some s => ((Tab.find d.lop.slots s).map fun l => l.st == 3).getD false
  | none => false

def calStageEnd (c : Nat) (zero ref : Int) (d : Dev) : Dev :=
  if calHeld c d then d else
  let a := adcOf d c
  match a.run with
  | .cal g false =>
    let a := { a with calNew := Tab.put a.calNew g (wd (unsgn 24 zero), calGain zero ref) }
    if g < 4 then
      setAdc c (match a.urgents with
        | u :: rest => { a with run := .urgent u.1 none, urgents := rest, calNext := some (g + 1) }
        | [] => { a with run := .cal (g + 1) false }) d
    else if a.calNew.all fun p => calOk p.2 then
      nextCal c true (setAdc c { a with
        offset := a.calNew.foldl (fun t p => Tab.set 0#32 t p.1 p.2.1) a.offset
        gain := a.calNew.foldl (fun t p => Tab.set 0x3F800000#32 t p.1 p.2.2) a.gain
        calibrated := true, calNew := [] } d)
    else
      errorTest (unitAdc c) (nextCal c false (setAdc c { a with status := setBit a.status 11 true, calNew := [] } d))
  | _ => d

/-- The Lock-keeper calibrates all four converters (R216). -/
def calAll (d : Dev) : Dev :=
  let cs := (List.range 4).filter fun c => !retired d (unitAdc c)
  let d := claimAll (cs.map resCal) srcLk
    { d with inp := { d.inp with cals := [{ slot := none, todo := cs, done := 0, failed := false }] } }
  match cs with
  | c :: _ => startCal c d
  | [] => d

/-! ## Commands -/

def execAdcPwmTrigger (bank : Fin 8) (s : State) := run (adcPwmTrigger bank.val) s

def execAdcTimerTrigger (adc : Fin 4) (s : State) := run (adcTimerTrigger adc.val) s

def execRefCheck (vext : Word) (vfield : Word) (s : State) := run (refCheck vext vfield) s

def execRefReady (s : State) := run refReady s

def execResultRegisterRead (adc : Fin 4) (slot : Fin 64) (s : State) := run (resultRegisterRead adc.val slot.val) s

def execResultHalfRead (adc : Fin 4) (slot : Fin 64) (high : Bool) (s : State) :=
  run (resultHalfRead adc.val slot.val high) s

def execCalStageEnd (adc : Fin 4) (zero : Int) (ref : Int) (s : State) := run (calStageEnd adc.val zero ref) s

end Sys2Proof.Machine
end

