-- ==== Sys2Proof/Machine/Blocks.lean ====
section
/-! DEFINITION. Blocks: the block slot and its checks (R115–R119), the rules blocks share (R120–R123), and the blocks
(R124–R136) with their tune rules (R137). -/
namespace Sys2Proof.Machine

/-! ## Slots (R115–R118) -/

def opExt : Nat := 0xFF
def opPid : Nat := 0x20
def opStage : Nat := 0x27
def opCurve : Nat := 0x28
def opRead : Nat := 0x50
def opWrite : Nat := 0x51

/-- Blocks that take an extension slot (R118). -/
def ownsExt (op : Nat) : Bool := op == opPid || op == opStage || op == opCurve

/-- The slot at byte `o`; `next` is the byte of the slot that follows, if the program has one. -/
def slotAt (b : List Byte) (o : Nat) (next : Option Nat) : Block :=
  let op := byteAt b o
  let flags := byteAt b (o + 1)
  let out := halfAt b (o + 4)
  { op := op, disable := decide (128 ≤ flags), flags := flags % 128, tag := halfAt b (o + 2),
    noOut := decide (32768 ≤ out), out := out % 32, ins := (List.range 4).map fun i => wordAt b (o + 8 + 4 * i),
    p0 := wordAt b (o + 0x18), p1 := wordAt b (o + 0x1C),
    ext := match next with
      | some n => if ownsExt op && byteAt b n == 255 then (List.range 7).map fun i => wordAt b (n + 4 + 4 * i) else []
      | none => [] }

/-- The reference names nothing (R116). -/
def refNone (r : Word) : Bool := fld r 31 30 == 3 || (fld r 31 30 == 0 && fld r 22 0 == 0x7FFFFF)

/-- Reserved bits and the constant index of a reference (R116, R119). -/
def refOk (consts : Nat) (r : Word) : Bool :=
  match fld r 31 30 with
  | 0 => fld r 29 23 == 0
  | 1 => fld r 29 5 == 0
  | 2 => fld r 29 6 == 0 && decide (fld r 5 0 < consts)
  | _ => fld r 29 0 == 0

/-- The blocks: required inputs and defined BFLAGS (R124–R136). -/
def opSpec (op : Nat) : Option (List Nat × Nat) :=
  match op with
  | 0x01 | 0x02 | 0x03 | 0x04 => some ([0, 1], 0)
  | 0x05 | 0x06 | 0x08 | 0x0D => some ([0], 0)
  | 0x07 | 0x09 => some ([0], 1)
  | 0x0A | 0x0B | 0x0C => some ([0], 2)
  | 0x20 => some ([0, 1], 1)
  | 0x21 => some ([0, 1], 3)
  | 0x22 | 0x23 | 0x24 | 0x26 | 0x27 => some ([0], 0)
  | 0x25 | 0x28 => some ([0], 1)
  | 0x30 | 0x31 | 0x32 => some ([0, 1], 1)
  | 0x33 => some ([0, 1], 0)
  | 0x40 | 0x41 | 0x42 | 0x43 => some ([0], 0)
  | 0x44 => some ([0, 1], 1)
  | 0x45 => some ([0, 1], 0)
  | 0x46 | 0x47 | 0x48 | 0x4A => some ([0], 0)
  | 0x49 => some ([0], 1)
  | 0x50 => some ([0], 1)
  | 0x51 => some ([0], 0)
  | 0x52 | 0x54 => some ([], 0)
  | 0x53 => some ([], 3)
  | _ => none

/-- A parameter at or above 0. -/
def nonNeg (v : Word) : Bool := F32.ge v F32.zero

def xOf (b : Block) (i : Nat) : Word := b.ext.getD i 0#32

/-- Offset of the first word of a list of conditions on consecutive words that fails. -/
def firstBad (off : Nat) (l : List Bool) : Option Nat :=
  match l.findIdx? (fun c => !c) with
  | some i => some (off + 4 * i)
  | none => none

/-- PARAM0 of a WRITE: target and priority (R135). -/
def writeTarget (b : Block) : Nat := fld b.p0 22 0
def writePrio (outPrio : Nat) (b : Block) : Nat := if fld b.p0 28 24 = 0 then outPrio else fld b.p0 28 24

def curveBase (b : Block) : Nat := fld b.p0 5 0
def curveCount (b : Block) : Nat := fld b.p0 12 8
def stageCount (b : Block) : Nat := fld b.p0 3 0

/-- Parameters outside their ranges: offset within the slot, extension words from 0x24 (R119, R125–R136). -/
def paramFault (consts : Nat) (b : Block) : Option Nat :=
  match b.op with
  | 0x04 => firstBad 0x1C [nonNeg b.p1]
  | 0x09 | 0x22 | 0x24 | 0x46 | 0x47 | 0x49 => firstBad 0x18 [nonNeg b.p0]
  | 0x21 | 0x48 => firstBad 0x18 [nonNeg b.p0 && (b.op == 0x48 || F32.finite b.p0), nonNeg b.p1]
  | 0x23 => firstBad 0x18 [nonNeg b.p0, nonNeg b.p1]
  | 0x20 =>
    (firstBad 0x18 [nonNeg b.p0 && F32.finite b.p0, nonNeg b.p1]).or
      (firstBad 0x24 [nonNeg (xOf b 0),
        F32.isZero (xOf b 1) || F32.ge (xOf b 1) F32.one && F32.le (xOf b 1) F32.hundred,
        F32.le (xOf b 2) (xOf b 3), true, nonNeg (xOf b 4), true, nonNeg (xOf b 6)])
  | 0x25 => firstBad 0x18 [F32.lt b.p0 b.p1]
  | 0x26 => firstBad 0x18 [F32.lt b.p0 b.p1 || F32.gt b.p0 b.p1]
  | 0x27 =>
    let ns := stageCount b
    if fld b.p0 31 4 ≠ 0 ∨ ns = 0 ∨ 8 < ns then some 0x18
    else if !b.noOut && decide (31 < b.out + ns - 1) then some 0x04
    else firstBad 0x24
      [F32.gt (xOf b 0) F32.zero && F32.le (xOf b 0) (F32.div F32.hundred (F32.ofNat ns)),
       nonNeg (xOf b 1) && F32.lt (xOf b 1) (xOf b 0), nonNeg (xOf b 2), nonNeg (xOf b 3), nonNeg (xOf b 4),
       nonNeg (xOf b 5)]
  | 0x28 =>
    if fld b.p0 7 6 ≠ 0 ∨ fld b.p0 31 13 ≠ 0 ∨ curveCount b < 2 ∨ 16 < curveCount b ∨
       consts < curveBase b + 2 * curveCount b then some 0x18
    else firstBad 0x24 ([true, true] ++ ((List.range 5).map fun i => xOf b (2 + i) == 0#32))
  | 0x45 => firstBad 0x18 [decide (b.p0.toNat ≤ 5), nonNeg b.p1]
  | 0x50 =>
    if b.flags % 2 = 0 then none
    else if fld (b.ins.getD 0 0) 31 30 ≠ 0 then some 0x08
    else firstBad 0x18 [decide (b.p0.toNat ≤ 3)]
  | 0x51 =>
    firstBad 0x18 [fld b.p0 23 23 == 0 && fld b.p0 31 29 == 0 && decide (fld b.p0 28 24 ≤ 16) &&
      decide (fld b.p0 28 24 ≠ 6), nonNeg b.p1 && F32.finite b.p1]
  | 0x53 => if b.flags % 4 = 3 then some 0x01 else firstBad 0x18 [decide (b.p0.toNat < 4096)]
  | 0x54 =>
    firstBad 0x18 [decide (b.p0.toNat < 262144),
      fld b.p1 31 16 == 0 && decide (fld b.p1 7 0 ≤ 6) && (fld b.p1 7 0 != 6 || decide (fld b.p1 15 8 ≤ 192))]
  | _ => none

/-- The first BAD_FORMAT of a slot: offset within it (R119). `raw` gives its bytes at `o`. -/
def slotFault (raw : List Byte) (o consts : Nat) (b : Block) : Option Nat :=
  if b.op = opExt then (if halfAt raw (o + 1) ≠ 0 ∨ byteAt raw (o + 3) ≠ 0 then some 1 else none)
  else match opSpec b.op with
    | none => some 0
    | some (req, flags) =>
      if b.flags &&& flags ≠ b.flags then some 1
      else if halfAt raw (o + 4) / 32 % 1024 ≠ 0 then some 4
      else if halfAt raw (o + 6) ≠ 0 then some 6
      else if ownsExt b.op && b.ext.isEmpty then some 0
      else match (List.range 4).find? fun i => !refOk consts (b.ins.getD i 0) || (req.contains i && refNone (b.ins.getD i 0)) with
        | some i => some (8 + 4 * i)
        | none => paramFault consts b

/-- The x constants of a CURVE rise strictly (R130): index of the first that does not. -/
def curveFault (consts : List Word) (b : Block) : Option Nat :=
  if b.op ≠ opCurve then none
  else
    let xs := (consts.drop (curveBase b)).take (curveCount b)
    match ((xs.zip (xs.drop 1)).findIdx? fun p => !F32.lt p.1 p.2) with
    | some i => some (curveBase b + i + 1)
    | none => none

/-! ## Evaluation (R116, R117, R120–R123) -/

/-- A value with its quality. -/
abbrev Val := Word × Nat

/-- What an evaluation reads: constants, snapshot with its stamp and rate, dt, schedules, zones, and the KIND and S of
a WRITE target. -/
structure Env where
  consts : List Word
  snap : List SnapIn
  /-- what READ blocks of a fast loop have from the field die (R95) -/
  direct : List SnapIn
  at' : Stamp
  age : Stamp → Word
  dt : Word
  outPrio : Nat
  sched : Nat → Nat → Val
  zone : Nat → Word → Val
  kind : Nat → Option (Nat × Word)

def nanFault : Val := (F32.nan, qFault)

/-- The source of a reference: none for NONE (R97, R116). -/
def inputOf (e : Env) (regs : Tab Val) (r : Word) : Option Val :=
  if refNone r then none
  else match fld r 31 30 with
    | 0 =>
      match e.snap.find? fun s => s.id == fld r 22 0 with
      | some s => some (s.value, s.quality)
      | none => some (F32.nan, qUncom)
    | 1 => some (Tab.get (0#32, qUncom) regs (fld r 4 0))
    | _ => some (e.consts.getD (fld r 5 0) 0#32, qGood)

/-- R122: usable. -/
def usable (v : Val) : Bool := v.2 != qFault && v.2 != qUncom && decide (v.2 < 8) && F32.finite v.1

/-- R122, cases 2 and 3: the result of unusable inputs, none when all are usable. -/
def unusable (vs : List Val) : Option Val :=
  if vs.all usable then none
  else if vs.any fun v => v.2 == qFault || (!F32.finite v.1 && v.2 != qUncom) then some nanFault
  else some (F32.nan, qUncom)

def worstQ (vs : List Val) : Nat := vs.foldl (fun q v => qWorst q v.2) qGood

/-- R122, case 4, and the flush of R120. -/
def finiteOr (v : Word) (q : Nat) : Val := if F32.finite v then (F32.flush v, q) else nanFault

/-- What a block leaves: results for OUT onwards, its state, the write it issues. -/
structure BlockRes where
  outs : List Val
  st : List Word
  write : Option LoopWrite := none

def stateless (v : Val) : BlockRes := { outs := [v], st := [] }

/-- A block without state over the inputs it uses. -/
def plainRes (vs : List Val) (v : Word) : BlockRes :=
  stateless ((unusable vs).getD (finiteOr v (worstQ vs)))

/-- A stateful block: frozen on unusable inputs (R123). -/
def stateful (vs : List Val) (st : List Word) (r : List Word × Word) : BlockRes :=
  match unusable vs with
  | some v => { outs := [v], st := st }
  | none => { outs := [finiteOr r.2 (worstQ vs)], st := r.1 }

def truth (v : Word) : Bool := F32.ne v F32.zero
def ofB (b : Bool) : Word := F32.ofBool b

/-- Fold of the inputs present in slot order. -/
def foldIn (f : Word → Word → Word) (vs : List Val) : Word :=
  match vs with
  | [] => F32.nan
  | v :: r => r.foldl (fun a x => f a x.1) v.1

/-- MIN, MAX and AVG leave out what is not usable when SKIP_BAD is set (R125). -/
def keepGood (skip : Bool) (vs : List Val) : List Val :=
  if skip && vs.any usable then vs.filter usable else vs

def sinf : Word := F32.inf false

/-! ## PID and PI_VEL (R126, R127) -/

def sgnOf (b : Block) : Word := if b.flags % 2 = 1 then F32.neg F32.one else F32.one

/-- e with the deadband. -/
def pidErr (b : Block) (sp pv : Word) : Word :=
  let e := F32.mul (sgnOf b) (F32.sub sp pv)
  if F32.lt (F32.abs e) (xOf b 6) then F32.zero else e

def pidN (b : Block) : Word := if F32.isZero (xOf b 1) then F32.ofNat 10 else xOf b 1
def pidTt (b : Block) : Word := if F32.isZero (xOf b 4) then b.p1 else xOf b 4

/-- The derivative term from the last one and the change of PV. -/
def pidD (b : Block) (d0 dpv dt : Word) : Word :=
  let td := xOf b 0
  let n := pidN b
  if F32.gt td F32.zero then
    let g := F32.div td (F32.add td (F32.mul n dt))
    F32.sub (F32.mul g d0) (F32.mul (F32.mul (F32.mul (F32.mul (sgnOf b) b.p0) n) g) dpv)
  else F32.zero

/-- TRACK when usable, whether enabled, and the qualities these two add. -/
def auxOf (b : Block) (src : Word → Option Val) : Option Word × Bool × List Val :=
  let tr := (src (b.ins.getD 2 0)).filter usable
  match src (b.ins.getD 3 0) with
  | none => (tr.map Prod.fst, true, tr.toList)
  | some en =>
    if usable en then (tr.map Prod.fst, truth en.1, tr.toList ++ [en])
    else (tr.map Prod.fst, false, tr.toList ++ [(F32.zero, qFault)])

/-- State: i, d, PV, u, SP, last change of PV, its dt, d before it, and 1 after a gap (R123). -/
def evalPid (e : Env) (b : Block) (st : List Word) (src : Word → Option Val) : BlockRes :=
  let pv := (src (b.ins.getD 0 0)).getD nanFault
  let sp := (src (b.ins.getD 1 0)).getD nanFault
  match unusable [pv, sp] with
  | some v => { outs := [v], st := if st.isEmpty then [] else st.set 8 1#32 }
  | none =>
    let aux := auxOf b src
    let q := worstQ ([pv, sp] ++ aux.2.2)
    let err := pidErr b sp.1 pv.1
    let kpe := F32.mul b.p0 err
    let bias := xOf b 5
    let fst := st.isEmpty
    let prev := if fst ∨ st.getD 8 0 = 1#32 then pv.1 else st.getD 2 0
    let d0 := if fst then F32.zero else st.getD 1 0
    let dpv := F32.sub pv.1 prev
    let d := if fst then F32.zero else pidD b d0 dpv e.dt
    let i := if fst then
        (match aux.1 with | some t => F32.sub (F32.sub (F32.sub t kpe) d) bias | none => F32.zero)
      else st.getD 0 0
    let v := F32.add (F32.add (F32.add kpe i) d) bias
    let u := F32.clamp v (xOf b 2) (xOf b 3)
    let w := aux.1.getD u
    let ti := b.p1
    let r : Word × Word :=
      if !aux.2.1 then (w, F32.sub (F32.sub (F32.sub w kpe) d) bias)
      else if F32.gt ti F32.zero then
        (u, F32.add (F32.add i (F32.mul (F32.div (F32.mul b.p0 e.dt) ti) err))
              (F32.mul (F32.div e.dt (pidTt b)) (F32.sub w v)))
      else (u, i)
    { outs := [finiteOr r.1 q], st := [r.2, d, pv.1, r.1, sp.1, dpv, e.dt, d0, 0#32] }

/-- Tune rule of PID (R137). -/
def tunePid (b : Block) (st : List Word) : List Word :=
  if st.isEmpty then []
  else
    let err := pidErr b (st.getD 4 0) (st.getD 2 0)
    let d := pidD b (st.getD 7 0) (st.getD 5 0) (st.getD 6 0)
    (st.set 1 d).set 0 (F32.sub (F32.sub (F32.sub (st.getD 3 0) (F32.mul b.p0 err)) d) (xOf b 5))

/-- State: e, u, and 1 after a gap. -/
def evalPiVel (e : Env) (b : Block) (st : List Word) (src : Word → Option Val) : BlockRes :=
  let pv := (src (b.ins.getD 0 0)).getD nanFault
  let sp := (src (b.ins.getD 1 0)).getD nanFault
  match unusable [pv, sp] with
  | some v => { outs := [v], st := if st.isEmpty then [] else st.set 2 1#32 }
  | none =>
    let aux := auxOf b src
    let q := worstQ ([pv, sp] ++ aux.2.2)
    let err := F32.mul (sgnOf b) (F32.sub sp.1 pv.1)
    let prev := if st.isEmpty ∨ st.getD 2 0 = 1#32 then err else st.getD 0 0
    let base := aux.1.getD (st.getD 1 0)
    let du := F32.mul b.p0 (F32.sub err prev)
    let du := if F32.gt b.p1 F32.zero then F32.add du (F32.mul (F32.div (F32.mul b.p0 e.dt) b.p1) err) else du
    let lo := if b.flags / 2 % 2 = 1 then F32.neg F32.hundred else F32.zero
    let u := if aux.2.1 then F32.clamp (F32.add base du) lo F32.hundred else base
    { outs := [finiteOr u q], st := [err, u, 0#32] }

/-! ## RAMP, RATE_LIMIT, FILTER, SPLIT, HYST, CURVE (R128, R130) -/

/-- State: y, target, rate. -/
def evalRamp (dt : Word) (b : Block) (st : List Word) (x : Word) : List Word × Word :=
  if st.isEmpty ∨ F32.isZero b.p0 then ([x, x, F32.zero], x)
  else
    let y := st.getD 0 0
    let rate := if F32.ne x (st.getD 1 0) then F32.div (F32.abs (F32.sub x y)) b.p0 else st.getD 2 0
    let step := F32.mul rate dt
    let y' := if F32.le (F32.abs (F32.sub x y)) step then x
      else if F32.gt x y then F32.add y step else F32.sub y step
    ([y', x, rate], y')

def evalRate (dt : Word) (b : Block) (st : List Word) (x : Word) : List Word × Word :=
  if st.isEmpty then ([x], x)
  else
    let y := st.getD 0 0
    let df := F32.sub x y
    let df := if F32.isZero b.p1 then df else F32.max df (F32.neg (F32.mul b.p1 dt))
    let df := if F32.isZero b.p0 then df else F32.min df (F32.mul b.p0 dt)
    let y' := F32.add y df
    ([y'], y')

def evalFilter (dt : Word) (b : Block) (st : List Word) (x : Word) : List Word × Word :=
  if st.isEmpty ∨ F32.isZero b.p0 then ([x], x)
  else
    let y := st.getD 0 0
    let y' := F32.add y (F32.mul (F32.div dt (F32.add b.p0 dt)) (F32.sub x y))
    ([y'], y')

def evalSplit (b : Block) (x : Word) : Word :=
  let y := F32.clamp (F32.div (F32.mul F32.hundred (F32.sub x b.p0)) (F32.sub b.p1 b.p0)) F32.zero F32.hundred
  if b.flags % 2 = 1 then F32.sub F32.hundred y else y

def evalHyst (b : Block) (st : List Word) (x : Word) : List Word × Word :=
  let y := st.getD 0 0
  let up := F32.gt b.p0 b.p1
  let on := if up then F32.ge x b.p0 else F32.le x b.p0
  let off := if up then F32.le x b.p1 else F32.ge x b.p1
  let y' := if on then F32.one else if off then F32.zero else y
  ([y'], y')

def lerp (x x0 x1 y0 y1 : Word) : Word :=
  F32.add y0 (F32.mul (F32.div (F32.sub x x0) (F32.sub x1 x0)) (F32.sub y1 y0))

def evalCurve (consts : List Word) (b : Block) (x : Word) : Word :=
  let n := curveCount b
  let xs := (consts.drop (curveBase b)).take n
  let ys := (consts.drop (curveBase b + n)).take n
  let g := fun i => xs.getD i 0
  let h := fun i => ys.getD i 0
  let k := min (n - 2) ((((List.range n).filter fun i => F32.le (g i) x).length) - 1)
  let v :=
    if F32.lt x (g 0) && b.flags % 2 == 0 then h 0
    else if F32.gt x (g (n - 1)) && b.flags % 2 == 0 then h (n - 1)
    else lerp x (g k) (g (k + 1)) (h k) (h (k + 1))
  F32.add (F32.mul v (xOf b 0)) (xOf b 1)

/-! ## STAGE (R129)

State: on-bitmap, stage started last, time since the last change, previous ROTATE, the seconds counter of each of eight
stages, what each has beyond its whole seconds (DESIGN CHOICE, log entry 184), then the running stages in the order in which
they started. A program with another NS finds it so (R114). -/

structure StageSt where
  on : List Nat
  last : Nat
  since : Word
  prev : Bool
  cnt : List Nat
  part : List Word

def stageLoad (ns : Nat) (st : List Word) : StageSt :=
  if st.isEmpty then ⟨[], ns - 1, sinf, false, List.replicate 8 65535, List.replicate 8 F32.zero⟩
  else
    ⟨((st.drop 20).map BitVec.toNat).filter (· < ns), min (st.getD 1 0).toNat (ns - 1), st.getD 2 0, st.getD 3 0 == 1#32,
     ((st.drop 4).take 8).map BitVec.toNat, (st.drop 12).take 8⟩

def stageSave (s : StageSt) : List Word :=
  [wd (s.on.foldl (fun a i => a + 2 ^ i) 0), wd s.last, s.since, wd (b2n s.prev)] ++ s.cnt.map wd ++ s.part ++ s.on.map wd

/-- dt passes for every stage: whole seconds go into its counter, which saturates at 65,535. -/
def stagePass (dt : Word) (s : StageSt) : StageSt :=
  let t := s.part.map fun p => F32.add p dt
  { s with
    cnt := (s.cnt.zip t).map fun p => min 65535 (p.1 + (F32.floor p.2).toNat)
    part := t.map fun p => F32.sub p (F32.ofInt (F32.floor p))
    since := F32.add s.since dt }

/-- A counter has reached a time; a saturated one has reached every time. -/
def reached (c : Nat) (t : Word) : Bool := F32.ge (F32.ofNat c) t || decide (65535 ≤ c)

/-- A stage changes: its counter starts again. -/
def stageZero (k : Nat) (s : StageSt) : StageSt := { s with cnt := s.cnt.set k 0, part := s.part.set k F32.zero }

def stageNext (b : Block) (s : StageSt) : Option Nat :=
  let ns := stageCount b
  ((List.range ns).map fun j => (s.last + 1 + j) % ns).find? fun k =>
    !s.on.contains k && reached (s.cnt.getD k 0) (xOf b 4)

def stageOn (k : Nat) (s : StageSt) : StageSt := stageZero k { s with on := s.on ++ [k], last := k }
def stageOff (k : Nat) (s : StageSt) : StageSt := stageZero k { s with on := s.on.filter (· != k) }

/-- One evaluation of STAGE: at most one change. -/
def stageRun (dt : Word) (b : Block) (st : List Word) (dem : Word) (en rot : Option Word) : StageSt :=
  let ns := stageCount b
  let s := stagePass dt (stageLoad ns st)
  let r := (rot.map truth).getD false
  let rising := r && !s.prev
  let s := { s with prev := r }
  let n := s.on.length
  let p := F32.div F32.hundred (F32.ofNat ns)
  let up := decide (n < ns) && F32.ge dem (F32.add (F32.mul (F32.ofNat n) p) (xOf b 0))
  let down := decide (0 < n) && F32.le dem (F32.add (F32.mul (F32.ofNat (n - 1)) p) (xOf b 1))
  let passed := F32.ge s.since (xOf b 2)
  let old := s.on.headD 0
  if (en.map truth).getD true = false then
    s.on.foldl (fun s k => stageOff k s) { s with since := if n = 0 then s.since else F32.zero }
  else if up then
    (match (if passed then stageNext b s else none) with
     | some k => { stageOn k s with since := F32.zero }
     | none => s)
  else if down then
    (if passed && reached (s.cnt.getD old 0) (xOf b 3) then { stageOff old s with since := F32.zero } else s)
  else if decide (0 < n ∧ n < ns) &&
      (rising || (F32.gt (xOf b 5) F32.zero && reached (s.cnt.getD old 0) (xOf b 5))) then
    (match stageNext b s with
     | some k => if reached (s.cnt.getD old 0) (xOf b 3) then stageOff old (stageOn k s) else s
     | none => s)
  else s

def evalStage (dt : Word) (b : Block) (st : List Word) (src : Word → Option Val) : BlockRes :=
  let ins := (List.range 3).map fun i => src (b.ins.getD i 0)
  let vs := ins.filterMap id
  let ns := stageCount b
  match unusable vs with
  | some v => { outs := List.replicate ns v, st := st }
  | none =>
    let g := fun i => ((ins.getD i none).map Prod.fst)
    let s := stageRun dt b st ((g 0).getD 0) (g 1) (g 2)
    { outs := (List.range ns).map fun k => (ofB (s.on.contains k), worstQ vs), st := stageSave s }

/-! ## Psychrometrics (R131, R132) -/

def psyEs (t : Word) : Word :=
  F32.mul (F32.rat 61094 100)
    (F32.exp (F32.div (F32.mul (F32.rat 17625 1000) t) (F32.add t (F32.rat 24304 100))))

def psyF (p : Word) : Word :=
  F32.sub (F32.add (F32.rat 10016 10000) (F32.mul (F32.rat 315 10000000000) p)) (F32.div (F32.rat 74 1000) p)

def psyW (e p : Word) : Word := F32.div (F32.mul (F32.rat 621945 1000000) e) (F32.sub p e)
def psyEofW (w p : Word) : Word := F32.div (F32.mul w p) (F32.add (F32.rat 621945 1000000) w)

/-- Td from e / f. -/
def psyTd (e : Word) : Word :=
  let g := F32.ln (F32.div e (F32.rat 61094 100))
  F32.div (F32.mul (F32.rat 24304 100) g) (F32.sub (F32.rat 17625 1000) g)

def psyH (t w : Word) : Word :=
  F32.add (F32.mul (F32.rat 1006 1000) t)
    (F32.mul w (F32.add (F32.ofNat 2501) (F32.mul (F32.rat 186 100) t)))

def within (x lo hi : Word) : Bool := F32.ge x lo && F32.le x hi

def evalPsy (b : Block) (src : Word → Option Val) : BlockRes :=
  let t := (src (b.ins.getD 0 0)).getD nanFault
  let x := (src (b.ins.getD 1 0)).getD nanFault
  let p := (src (b.ins.getD 2 0)).getD (F32.ofNat 101325, qGood)
  let isW := b.flags % 2 == 1
  let usesP := isW || b.op == 0x32 || b.op == 0x33
  let vs := if usesP then [t, x, p] else [t, x]
  match unusable vs with
  | some v => stateless v
  | none =>
    let isRh := !isW && b.op != 0x31
    let ok := within t.1 (F32.ofInt (-40)) (F32.ofNat 80) &&
      (!isRh || within x.1 F32.zero (F32.ofNat 105)) && (!isW || within x.1 F32.zero (F32.rat 2 10)) &&
      (!usesP || within p.1 (F32.ofNat 50000) (F32.ofNat 110000))
    if !ok then stateless nanFault
    else
      let rh := F32.min x.1 F32.hundred
      let rh := if b.op = 0x30 then F32.max rh (F32.rat 1 10) else rh
      let f := psyF p.1
      let es := psyEs t.1
      let eOf := fun rh => F32.div (F32.mul (F32.mul f es) rh) F32.hundred
      let v := match b.op with
        | 0x30 => if isW then psyTd (F32.div (psyEofW x.1 p.1) f) else psyTd (F32.div (F32.mul es rh) F32.hundred)
        | 0x31 =>
          F32.clamp (F32.mul F32.hundred (if isW then F32.div (psyEofW x.1 p.1) (F32.mul f es)
            else F32.div (psyEs x.1) es)) F32.zero F32.hundred
        | 0x32 => psyH t.1 (if isW then x.1 else psyW (eOf rh) p.1)
        | _ => psyW (eOf rh) p.1
      let q := worstQ vs
      let q := if within t.1 (F32.ofInt (-20)) (F32.ofNat 60) then q else qWorst q qEst
      stateless (finiteOr v q)

/-! ## Logic and time (R133) -/

def evalCmp (b : Block) (st : List Word) (x y : Word) : List Word × Word :=
  let old := truth (st.getD 0 0)
  let h := b.p1
  let lo := F32.sub y h
  let hi := F32.add y h
  let pick := fun (on off : Bool) => if on then true else if off then false else old
  let r := match b.p0.toNat with
    | 0 => F32.le (F32.abs (F32.sub x y)) h
    | 1 => !F32.le (F32.abs (F32.sub x y)) h
    | 2 => pick (F32.gt x y) (F32.lt x lo)
    | 3 => pick (F32.ge x y) (F32.le x lo)
    | 4 => pick (F32.lt x y) (F32.gt x hi)
    | _ => pick (F32.le x y) (F32.ge x hi)
  ([ofB r], ofB r)

def evalLatch (b : Block) (st : List Word) (s r : Word) : List Word × Word :=
  let y := if truth s && truth r then b.flags % 2 == 1 else if truth s then true else if truth r then false
    else truth (st.getD 0 0)
  ([ofB y], ofB y)

/-- Elapsed time of a timer whose input has just changed, or which runs on; NaN while it does not run. -/
def elapse (el dt : Word) : Word := if F32.isNaN el then F32.zero else F32.add el dt

def evalTon (dt : Word) (b : Block) (st : List Word) (x : Word) : List Word × Word :=
  if truth x then
    let el := elapse (st.getD 0 F32.nan) dt
    ([el], ofB (F32.ge el b.p0))
  else ([F32.nan], F32.zero)

/-- State: time for which the input has been false, without end before it has first been true. -/
def evalTof (dt : Word) (b : Block) (st : List Word) (x : Word) : List Word × Word :=
  if truth x then ([F32.nan], F32.one)
  else
    let el := elapse (st.getD 0 sinf) dt
    ([el], ofB (!F32.ge el b.p0))

/-- State: y, elapsed. -/
def evalMinOnOff (dt : Word) (b : Block) (st : List Word) (x : Word) : List Word × Word :=
  let on := truth x
  if st.isEmpty then ([ofB on, sinf], ofB on)
  else
    let y := truth (st.getD 0 0)
    let el := F32.add (st.getD 1 0) dt
    if on != y && F32.ge el (if y then b.p0 else b.p1) then ([ofB on, F32.zero], ofB on) else ([ofB y, el], ofB y)

/-- State: y, elapsed, previous input. -/
def evalPulse (dt : Word) (b : Block) (st : List Word) (x : Word) : List Word × Word :=
  let on := truth x
  let edge := on && !truth (st.getD 2 0)
  let y := truth (st.getD 0 0)
  let el := if y then F32.add (st.getD 1 0) dt else F32.zero
  let go := edge && (!y || b.flags % 2 == 1)
  let el := if go then F32.zero else el
  let y := (y || go) && !F32.ge el b.p0
  ([ofB y, el, ofB on], ofB y)

/-- State: count, previous input. -/
def evalCount (st : List Word) (x : Word) (reset : Option Word) : List Word × Word :=
  let on := truth x
  let edge := on && !truth (st.getD 1 0)
  let n := (st.getD 0 0).toNat
  let n := if (reset.map truth).getD false then 0 else if edge then (n + 1) % 16777216 else n
  ([wd n, ofB on], F32.ofNat n)

/-! ## Data blocks (R134, R135) -/

/-- A record as a READ of a point has it: from the field die, or from the snapshot (R95, R97). -/
def readRecord (e : Env) (id : Nat) : Option SnapIn :=
  (e.direct.find? fun s => s.id == id).or (e.snap.find? fun s => s.id == id)

/-- READ. Of a point that is not defined, age and priority are values that the manual does not state (log entry 185). -/
def evalRead (e : Env) (b : Block) (src : Word → Option Val) : Val :=
  let r := b.ins.getD 0 0
  let id := fld r 22 0
  if b.flags % 2 = 0 then
    (if fld r 31 30 = 0 then (readRecord e id).map fun s => (s.value, s.quality) else none).getD ((src r).getD nanFault)
  else match readRecord e id with
    | none =>
      match b.p0.toNat with
      | 0 => (F32.nan, qUncom)
      | 1 => (F32.ofNat qUncom, qGood)
      | n => (Config.undefinedField id n, qGood)
    | some s =>
      match b.p0.toNat with
      | 0 => (s.value, s.quality)
      | 1 => (F32.ofNat s.quality, qGood)
      | 2 => (e.age s.stamp, qGood)
      | _ => (F32.ofNat s.prio, qGood)

/-- The value fitted to the target's KIND, with the quality of the fit (R135). -/
def fitTo (kind : Option (Nat × Word)) (v : Val) : Val :=
  match kind with
  | none => v
  | some (k, s) =>
    if !F32.finite v.1 then v
    else if kindBinary k then (ofB (truth v.1), v.2)
    else if kindMulti k || k == 10 then
      let n := F32.round v.1
      let ok := if k = 10 then decide (0 ≤ n ∧ n ≤ 16777215) else decide (1 ≤ n) && F32.le (F32.ofInt n) s
      (F32.ofInt n, if ok then v.2 else qWorst v.2 qFault)
    else v

def evalWrite (e : Env) (b : Block) (src : Word → Option Val) : BlockRes :=
  let x := (src (b.ins.getD 0 0)).getD nanFault
  let v := fitTo (e.kind (writeTarget b)) ((unusable [x]).getD x)
  { outs := [v], st := [],
    write := some { id := writeTarget b, prio := writePrio e.outPrio b, value := v.1, quality := v.2,
                    tolerance := b.p1, kind := ((e.kind (writeTarget b)).map Prod.fst).getD 0 } }

/-! ## One block, one program -/

def evalBlock (e : Env) (b : Block) (st : List Word) (src : Word → Option Val) : BlockRes :=
  let ins := (List.range 4).map fun i => src (b.ins.getD i 0)
  let g := fun i => (ins.getD i none).getD nanFault
  let vs := ins.filterMap id
  let x := (g 0).1
  let y := (g 1).1
  match b.op with
  | 0x01 => plainRes vs (foldIn F32.add vs)
  | 0x02 => plainRes [g 0, g 1] (F32.sub x y)
  | 0x03 => plainRes vs (foldIn F32.mul vs)
  | 0x04 =>
    if (unusable [g 0, g 1]).isNone && F32.le (F32.abs y) b.p1 then stateless (b.p0, qFault)
    else plainRes [g 0, g 1] (F32.div x y)
  | 0x05 => plainRes [g 0] (F32.add (F32.mul x b.p0) b.p1)
  | 0x06 => plainRes [g 0] (F32.abs x)
  | 0x07 => plainRes [g 0] (if F32.lt x F32.zero then (if b.flags % 2 = 1 then F32.zero else F32.nan) else F32.sqrt x)
  | 0x08 =>
    let lo := (ins.getD 1 none).getD (b.p0, qGood)
    let hi := (ins.getD 2 none).getD (b.p1, qGood)
    plainRes [g 0, lo, hi] (if F32.gt lo.1 hi.1 then F32.nan else F32.min (F32.max x lo.1) hi.1)
  | 0x09 =>
    let c := (ins.getD 1 none).getD (F32.zero, qGood)
    let df := F32.sub x c.1
    plainRes [g 0, c]
      (if F32.le (F32.abs df) b.p0 then c.1
       else if b.flags % 2 = 1 then x
       else F32.sub (F32.add c.1 df) (if F32.lt df F32.zero then F32.neg b.p0 else b.p0))
  | 0x0A => let k := keepGood (b.flags / 2 % 2 == 1) vs
            plainRes k (foldIn F32.min k)
  | 0x0B => let k := keepGood (b.flags / 2 % 2 == 1) vs
            plainRes k (foldIn F32.max k)
  | 0x0C => let k := keepGood (b.flags / 2 % 2 == 1) vs
            plainRes k (F32.div (foldIn F32.add k) (F32.ofNat k.length))
  | 0x0D =>
    (match unusable [g 0] with
     | some v => stateless v
     | none =>
       let k := F32.round x
       match (if 1 ≤ k ∧ k ≤ 3 then ins.getD k.toNat none else none) with
       | some c => plainRes [g 0, c] c.1
       | none => stateless nanFault)
  | 0x20 => evalPid e b st src
  | 0x21 => evalPiVel e b st src
  | 0x22 => stateful [g 0] st (evalRamp e.dt b st x)
  | 0x23 => stateful [g 0] st (evalRate e.dt b st x)
  | 0x24 => stateful [g 0] st (evalFilter e.dt b st x)
  | 0x25 => plainRes [g 0] (evalSplit b x)
  | 0x26 => stateful [g 0] st (evalHyst b st x)
  | 0x27 => evalStage e.dt b st src
  | 0x28 => plainRes [g 0] (evalCurve e.consts b x)
  | 0x30 | 0x31 | 0x32 | 0x33 => evalPsy b src
  | 0x40 => plainRes vs (ofB (vs.all fun v => truth v.1))
  | 0x41 => plainRes vs (ofB (vs.any fun v => truth v.1))
  | 0x42 => plainRes vs (ofB ((vs.filter fun v => truth v.1).length % 2 == 1))
  | 0x43 => plainRes [g 0] (ofB (!truth x))
  | 0x44 => stateful [g 0, g 1] st (evalLatch b st x y)
  | 0x45 => stateful [g 0, g 1] st (evalCmp b st x y)
  | 0x46 => stateful [g 0] st (evalTon e.dt b st x)
  | 0x47 => stateful [g 0] st (evalTof e.dt b st x)
  | 0x48 => stateful [g 0] st (evalMinOnOff e.dt b st x)
  | 0x49 => stateful [g 0] st (evalPulse e.dt b st x)
  | 0x4A => stateful ((ins.take 2).filterMap id) st (evalCount st x ((ins.getD 1 none).map Prod.fst))
  | 0x50 => stateless (evalRead e b src)
  | 0x51 => evalWrite e b src
  | 0x52 => stateless (finiteOr b.p0 qGood)
  | 0x53 => stateless (e.sched b.p0.toNat (b.flags % 4))
  | 0x54 => let v := e.zone b.p0.toNat b.p1
            stateless (if v.2 = qFault ∨ v.2 = qUncom then v else finiteOr v.1 v.2)
  | _ => { outs := [], st := st }

/-- The registers after a block's results (R117). -/
def putOuts (b : Block) (outs : List Val) (regs : Tab Val) : Tab Val :=
  if b.noOut then regs
  else (outs.foldl (fun (a : Nat × Tab Val) v => (a.1 + 1, Tab.set (0#32, qUncom) a.2 a.1 v)) (b.out, regs)).2

/-- The blocks of one evaluation in slot order (R117): copy left and writes issued. -/
def evalBlocks (e : Env) : List Block → List (List Word) → Tab Val → Tab Val × List (List Word) × List LoopWrite
  | [], _, regs => (regs, [], [])
  | b :: bs, sts, regs =>
    let st := sts.headD []
    if b.disable || b.op == opExt then
      let r := evalBlocks e bs (sts.drop 1) regs
      (r.1, st :: r.2.1, r.2.2)
    else
      let o := evalBlock e b st (inputOf e regs)
      let r := evalBlocks e bs (sts.drop 1) (putOuts b o.outs regs)
      (r.1, o.st :: r.2.1, o.write.toList ++ r.2.2)

/-- A whole evaluation of a copy. -/
def evalProg (e : Env) (p : Prog) (c : LoopCopy) : LoopCopy × List LoopWrite :=
  let r := evalBlocks e p.blocks c.blocks c.regs
  (⟨r.1, r.2.1⟩, r.2.2)

/-! ## Tune rules (R137) -/

def tuneBlock (old new : Block) (st : List Word) : List Word :=
  if old = new then st
  else match new.op with
    | 0x20 => tunePid new st
    | 0x22 =>
      if st.isEmpty ∨ old.p0 = new.p0 then st
      else st.set 2 (F32.div (F32.abs (F32.sub (st.getD 1 0) (st.getD 0 0))) new.p0)
    | _ => st

def tuneCopy (old new : Prog) (c : LoopCopy) : LoopCopy :=
  { c with blocks := ((old.blocks.zip new.blocks).zip c.blocks).map fun p => tuneBlock p.1.1 p.1.2 p.2 }

end Sys2Proof.Machine
end

