-- ==== Sys2Proof/Machine/Calendar.lean ====
section
/-! DEFINITION. Calendar: dates (R171, R173), local-time rules (R181), calendars (R182), and schedules as functions of
the time (R183–R188). -/
namespace Sys2Proof.Machine

/-! ## Dates -/

structure LocalDate where
  year : Int
  month : Nat
  day : Nat
  wday : Nat
  deriving DecidableEq, Repr

def monthOfDay : Nat → Nat → Nat → Nat → Nat × Nat
  | 0, _, m, r => (m, r + 1)
  | k + 1, y, m, r => if r < monthLen y m then (m, r + 1) else monthOfDay k y (m + 1) (r - monthLen y m)

/-- The date `n` days after Saturday 2000-01-01 (R173); the days before it are those of December 1999. -/
def dateOfDay (n : Int) : LocalDate :=
  let wd' := ((n + 5) % 7).toNat + 1
  if n < 0 then ⟨-1, 12, (32 + n).toNat, wd'⟩
  else
    let n := n.toNat
    let r := n % 1461
    let y := 4 * (n / 1461) + (if r < 366 then 0 else 1 + (r - 366) / 365)
    let r := if r < 366 then r else (r - 366) % 365
    let p := monthOfDay 11 y 1 r
    ⟨y, p.1, p.2, wd'⟩

/-- Seconds from 2000-01-01 to the RTC's date and time, unbounded (R173). -/
def utcNow (d : Dev) : Int := ((daysTo d.clk.now * 86400 + todOf d.clk.now : Nat) : Int)

/-! ## Local time (R181) -/

def ruleOf (d : Dev) (r : Nat) : List Word := Tab.get [] d.sched.rules r
def ruleWord (r : List Word) (i : Nat) : Word := r.getD i 0#32
def stdSecs (r : List Word) : Int := sgn 16 (fld (ruleWord r 0) 15 0) * 60
def dstSecs (r : List Word) : Int := (fld (ruleWord r 0) 31 16 : Int) * 60

/-- Days from 2000-01-01 to the first of a month; a year before 2000 is taken as 1999. -/
def daysToMonthOf (y : Int) (m : Nat) : Int :=
  if y < 0 then (daysToMonth 1 m : Int) - 731 else daysToMonth y.toNat m

def monthLenOf (y : Int) (m : Nat) : Nat := monthLen (if y < 0 then 1 else y.toNat) m

/-- Day of the month of the week-th weekday; week 5 is the last. -/
def nthWeekday (y : Int) (m week wday : Nat) : Nat :=
  let first := ((daysToMonthOf y m + 5) % 7).toNat + 1
  let d1 := 1 + (wday + 7 - first) % 7
  if week < 5 then d1 + 7 * (week - 1)
  else if d1 + 28 ≤ monthLenOf y m then d1 + 28 else d1 + 21

/-- A START or END word as seconds of its year's local clock. -/
def changeAt (y : Int) (w : Word) : Int :=
  (daysToMonthOf y (fld w 3 0) + nthWeekday y (fld w 3 0) (fld w 6 4) (fld w 10 8) - 1) * 86400 + fld w 26 16 * 60

/-- The start instant in local standard time. -/
def dstStart (r : List Word) (y : Int) : Int := changeAt y (ruleWord r 1)

/-- The end instant in local standard time; it can fall in the year before. -/
def dstEnd (r : List Word) (y : Int) : Int := changeAt y (ruleWord r 2) - dstSecs r

/-- The years whose start and end can lie about a second of local standard time. -/
def yearsAbout (s : Int) : List Int := let y := (dateOfDay (s / 86400)).year; [y - 1, y, y + 1]

/-- Daylight time is in force at a UTC second: between the start and the end of a year, or, with the start in a month
after the end's, outside the interval from the end to the start (R181). -/
def dstAt (r : List Word) (u : Int) : Bool :=
  if dstSecs r = 0 then false
  else
    let s := u + stdSecs r
    if fld (ruleWord r 2) 3 0 < fld (ruleWord r 1) 3 0 then
      !((yearsAbout s).any fun y => decide (dstEnd r y ≤ s ∧ s < dstStart r y))
    else (yearsAbout s).any fun y => decide (dstStart r y ≤ s ∧ s < dstEnd r y)

def offsetAt (r : List Word) (u : Int) : Int := stdSecs r + (if dstAt r u then dstSecs r else 0)

/-- The local hour is being repeated after a backward change (R186). -/
def inRepeat (r : List Word) (u : Int) : Bool := !dstAt r u && dstAt r (u - dstSecs r)

/-- The UTC second at which a local second is reached: the first pass of a repeated one, the end of the gap for a
skipped one (R186). -/
def utcOfLocal (r : List Word) (l : Int) : Int :=
  let a := l - stdSecs r - dstSecs r
  let b := l - stdSecs r
  if dstAt r a then a
  else if dstAt r b then
    (((yearsAbout l).map (dstStart r)).find? fun x => decide (l - dstSecs r < x ∧ x ≤ l)).getD l - stdSecs r
  else b

/-- The UTC second from which a local second of the future counts. In a repeated hour no transition fires: what lies in
the first pass takes effect when the repeat has ended (R186). -/
def effectiveAt (r : List Word) (u l : Int) : Int :=
  let x := utcOfLocal r l
  if inRepeat r u && decide (x ≤ u) then
    (((yearsAbout (u + stdSecs r)).map (dstEnd r)).find? fun e =>
      decide (e ≤ u + stdSecs r ∧ u + stdSecs r < e + dstSecs r)).getD l + dstSecs r - stdSecs r
  else x

/-! ## Calendars (R182) -/

def entryMatches (w0 w1 : Word) (x : LocalDate) : Bool :=
  let m := fld w0 11 8
  let mOk := m == 0 || m == x.month
  match fld w0 31 28 with
  | 1 =>
    let y := fld w0 23 16
    let dd := fld w0 4 0
    (y == 255 || y == 0 || (y : Int) == x.year) && mOk && (dd == 0 || dd == x.day)
  | 2 =>
    let key := fun (y : Int) (m dd : Nat) => (y * 16 + m) * 32 + dd
    let k := key x.year x.month x.day
    decide (key (fld w0 23 16) m (fld w0 4 0) ≤ k ∧ k ≤ key (fld w1 23 16) (fld w1 11 8) (fld w1 4 0))
  | 3 =>
    let wk := fld w0 6 4
    let wday := fld w0 2 0
    mOk && (wday == 0 || wday == x.wday) &&
      (wk == 0 || (if wk = 5 then decide (monthLen x.year.toNat x.month < x.day + 7) else (x.day - 1) / 7 + 1 == wk))
  | _ => false

def calMatches (d : Dev) (c : Nat) (x : LocalDate) : Bool :=
  let ws := Tab.get [] d.sched.cals c
  (List.range 64).any fun i => entryMatches (ws.getD (2 * i) 0#32) (ws.getD (2 * i + 1) 0#32) x

/-- A calendar entry that breaks its rules: offset of the field (R182). -/
def calEntryFault (w0 w1 : Word) : Option Nat :=
  let t := fld w0 31 28
  let dateOk := fun (w : Word) => decide (1 ≤ fld w 11 8 ∧ fld w 11 8 ≤ 12 ∧ 1 ≤ fld w 4 0) && fld w 15 12 == 0 && fld w 7 5 == 0
  if 4 ≤ t ∨ fld w0 27 24 ≠ 0 then some 3
  else if fld w0 15 12 ≠ 0 ∨ 12 < fld w0 11 8 then some 1
  else if bit w0 7 then some 0
  else if t = 1 ∧ fld w0 6 5 ≠ 0 then some 0
  else if t = 3 ∧ (bit w0 3 ∨ 5 < fld w0 6 4) then some 0
  else if t = 2 then
    (if !dateOk w0 then some 0 else if fld w1 31 24 ≠ 0 ∨ !dateOk w1 then some 4 else none)
  else if w1 ≠ 0#32 then some 4
  else none

/-! ## Schedules (R183, R184, R188) -/

def nullWord : Word := 0xFFFFFFFF#32

def excMatches (d : Dev) (e : SchedExc) (x : LocalDate) : Bool :=
  if e.inline then entryMatches e.entry 0#32 x else calMatches d e.cal x

/-- The list in effect on a date. -/
def listOn (d : Dev) (s : Sched) (x : LocalDate) : List Trans :=
  let best := (s.excs.filter fun e => excMatches d e x).foldl
    (fun (b : Option SchedExc) e => match b with
      | some o => if e.prio < o.prio then some e else b
      | none => some e) none
  match best with
  | some e => e.list
  | none => s.days.getD (x.wday - 1) []

/-- The value in effect at a local second. -/
def valueAt (d : Dev) (s : Sched) (l : Int) : Word :=
  let m := ((l % 86400) / 60).toNat
  (((listOn d s (dateOfDay (l / 86400))).filter fun t => decide (t.minute ≤ m)).getLast?.map (·.value)).getD s.dflt

/-- The local seconds of a day at which the value may change. -/
def changesOn (d : Dev) (s : Sched) (day : Int) : List Int :=
  let ms := (listOn d s (dateOfDay day)).map (·.minute)
  (if ms.headD 1 = 0 then ms else 0 :: ms).map fun (m : Nat) => day * 86400 + (m : Int) * 60

/-- The value of a schedule at a UTC second. -/
def presentAt (d : Dev) (s : Sched) (u : Int) : Word := valueAt d s (u + offsetAt (ruleOf d s.rule) u)

/-- The next transition at which the present value changes, at most 7 local days ahead: its UTC second and the value then.
Those that a forward change skips take effect after the gap, the last of them winning (R186, R188). -/
def nextChange (d : Dev) (s : Sched) (present : Word) (u : Int) : Option (Nat × Word) :=
  let r := ruleOf d s.rule
  let l := u + offsetAt r u
  let cand := ((List.range 8).flatMap fun (k : Nat) => changesOn d s (l / 86400 + (k : Int))).filter fun c =>
    decide (l < c ∧ c ≤ l + 604800)
  ((cand.map (effectiveAt r u)).find? fun x => decide (u < x) && presentAt d s x != present).map fun x =>
    (x.toNat, presentAt d s x)

/-- The Lock-keeper evaluates schedules (R185, R438). -/
def schedRuns (d : Dev) : Bool := rtcValid d && !oddDate d.clk.now && !d.clk.stopSeen

def minutesTo (d : Dev) (s : Sched) : Nat :=
  match s.next with
  | some p => min 65535 ((((p.1 : Int) - utcNow d) / 60).toNat)
  | none => 65535

/-- The present value as last evaluated, or as it would be now. -/
def presentOf (d : Dev) (s : Sched) : Word := s.present.getD (presentAt d s (utcNow d))

/-- What SCHED_READ gives (R136, R172, R188); before a schedule's first evaluation of an unset clock its value is open
(log entry 7). -/
def schedRead (d : Dev) (n mode : Nat) : Val :=
  match Tab.find d.sched.scheds n with
  | none => (F32.nan, qUncom)
  | some s =>
    let stale := !rtcValid d || oddDate d.clk.now
    let present := if stale then s.present.getD (Config.free (0x10000000 + n)) else presentOf d s
    let v := match mode with
      | 0 => present
      | 1 => (s.next.map Prod.snd).getD present
      | _ => F32.ofNat (minutesTo d s)
    finiteOr v (if stale then qStale else qGood)

end Sys2Proof.Machine
end

