-- ==== Sys2Proof/Machine/Sched.lean ====
section
/-! DEFINITION. Sched: evaluation and writing of schedules (R185–R188), their commands (R181–R183, R364), and the LOOP
region they share with loop images (R88). -/
namespace Sys2Proof.Machine

/-! ## The LOOP region (R88) -/

def up64 (n : Nat) : Nat := (n + 63) / 64 * 64

/-- Size of a fabric loop image; a fast loop takes no space there (R88, R89). -/
def progSize (p : Prog) : Nat :=
  if p.fast then 0
  else up64 (64 + 32 * p.slots + (4 * p.consts.length + 31) / 32 * 32 +
    (if p.roped then 2 else 1) * (128 + 16 * p.slots))

/-- Bytes in use: directory, images, waiting swap images, schedules. -/
def loopUsed (d : Dev) : Nat :=
  16 * ((d.pe.plan.map (·.loops)).getD 0) +
  (d.loops.fabric.map fun p => progSize p.2.prog + ((p.2.next.map progSize).getD 0)).sum +
  (d.sched.scheds.map fun p => p.2.size).sum

def loopBytes (d : Dev) : Nat := ((d.pe.plan.map (·.loopMib)).getD 0) * 1048576

/-- `n` more bytes fit once `freed` are given back. -/
def loopFits (n freed : Nat) (d : Dev) : Bool := decide (loopUsed d + n ≤ loopBytes d + freed)

/-! ## Writing -/

/-- Write a schedule's value to its target, or relinquish its level for NULL. -/
def schedWrite (n : Nat) (s : Sched) (v : Word) (d : Dev) : Dev :=
  let op : PointAct :=
    if v = nullWord then .relinquish s.prio
    else
      let x := fitTo ((recOf d s.target).map fun r => (r.kind, statesOf r)) (v, qGood)
      .write x.1 x.2 none s.prio
  enqueue { id := s.target, act := op, stamp := now d, source := srcWord 5 n, writer := .inner,
            authorised := s.authorised } d

def putSched (n : Nat) (s : Sched) (d : Dev) : Dev :=
  { d with sched := { d.sched with scheds := Tab.put d.sched.scheds n s } }

/-- One evaluation: written when the present value changed or when `force`; during a repeated hour the present value is
kept (R186). -/
def evalSched (force : Bool) (n : Nat) (d : Dev) : Dev :=
  match Tab.find d.sched.scheds n with
  | none => d
  | some s =>
    let u := utcNow d
    if !force && s.present.isSome && inRepeat (ruleOf d s.rule) u then d
    else
      let v := presentAt d s u
      if force || s.present != some v then
        schedWrite n s v (putSched n { s with present := some v, next := nextChange d s v u } d)
      else putSched n { s with next := if (s.next.map fun p => decide ((p.1 : Int) ≤ u)).getD true then nextChange d s v u else s.next } d

/-- Queue a time event (R189); a later one of the same cause merges into it. -/
def timeEventQ (cause : Nat) (wall : Word) (d : Dev) : Dev :=
  if bit d.clk.ctrl 10 then
    { d with clk := { d.clk with waiting := Tab.put d.clk.waiting cause (wall, d.clk.status) } }
  else d

/-- Offsets that changed since the last evaluation, for the rules that schedules use. -/
def noteOffsets (d : Dev) : Dev :=
  let u := utcNow d
  let used := (d.sched.scheds.map fun p => p.2.rule).eraseDups
  let changed := used.any fun r => match Tab.find d.sched.lastOffset r with
    | some o => o != offsetAt (ruleOf d r) u
    | none => false
  let d := { d with sched := { d.sched with
    lastOffset := used.foldl (fun t r => Tab.put t r (offsetAt (ruleOf d r) u)) d.sched.lastOffset } }
  if changed then timeEventQ 5 (wallTime d) d else d

/-- Every schedule that `p` names, evaluated while the clock allows it (R185, R187). -/
def evalScheds (force : Bool) (p : Sched → Bool) (d : Dev) : Dev :=
  if schedRuns d then
    forEach ((d.sched.scheds.filter fun x => p x.2).map Prod.fst) (evalSched force) (noteOffsets d)
  else d

def scheduleEvaluation (d : Dev) : Dev := settle (evalScheds false (fun _ => true) d)

/-! ## SCHED_LOAD (R183) -/

def transAt (b : List Byte) (o n : Nat) : List Trans :=
  (List.range n).map fun i => ⟨halfAt b (o + 8 * i), wordAt b (o + 8 * i + 4)⟩

/-- The exceptions from byte `o` on, with the byte after them. -/
def excsAt (b : List Byte) : Nat → Nat → List (Nat × SchedExc) × Nat
  | 0, o => ([], o)
  | k + 1, o =>
    let n := byteAt b (o + 2)
    let r := excsAt b k (o + 8 + 8 * n)
    ((o, ⟨byteAt b o == 1, byteAt b (o + 1), byteAt b (o + 3), wordAt b (o + 4), transAt b (o + 8) n⟩) :: r.1, r.2)

def dayCount (b : List Byte) (k : Nat) : Nat := byteAt b (0x0C + k)
def dayOffset (b : List Byte) (k : Nat) : Nat := 0x20 + 8 * ((List.range k).map (dayCount b)).sum

/-- The first transition of a list that breaks its rules: offset. -/
def transFault (b : List Byte) (o n : Nat) : Option Nat :=
  ((List.range n).find? fun i =>
    decide (1439 < halfAt b (o + 8 * i)) || decide (0 < i ∧ halfAt b (o + 8 * i) ≤ halfAt b (o + 8 * i - 8))).map
      (fun i => o + 8 * i) |>.or
  (((List.range n).find? fun i => decide (halfAt b (o + 8 * i + 2) ≠ 0)).map fun i => o + 8 * i + 2)

def excFault (b : List Byte) (p : Nat × SchedExc) : Option Nat :=
  let o := p.1
  let t := fld p.2.entry 31 28
  if 1 < byteAt b o then some o
  else if p.2.prio = 0 ∨ 16 < p.2.prio then some (o + 1)
  else if 16 < byteAt b (o + 2) then some (o + 2)
  else if p.2.inline ∧ p.2.cal ≠ 0 ∨ 64 ≤ p.2.cal then some (o + 3)
  else if p.2.inline then
    (if (t ≠ 1 ∧ t ≠ 3) ∨ (calEntryFault p.2.entry 0#32).isSome then some (o + 4)
     else transFault b (o + 8) p.2.list.length)
  else transFault b (o + 8) p.2.list.length

/-- The first field of the program that breaks its rules. -/
def schedFault (b : List Byte) (excs : List (Nat × SchedExc)) : Option Nat :=
  let p := byteAt b 1
  if p = 0 ∨ 16 < p ∨ p = 6 then some 1
  else if 16 ≤ byteAt b 2 then some 2
  else if 32 < byteAt b 3 then some 3
  else if 8388608 ≤ (wordAt b 4).toNat then some 4
  else firstSome
    [((List.range 7).find? fun k => decide (16 < dayCount b k)).map (0x0C + ·),
     ((List.range 9).find? fun k => decide (byteAt b (0x13 + k) ≠ 0)).map (0x13 + ·),
     firstSome ((List.range 7).map fun k => transFault b (dayOffset b k) (dayCount b k)),
     firstSome (excs.map (excFault b))]

def schedLoad (c : HostCmd) (d : Dev) : Option Done × Dev :=
  let n := c.target.toNat
  let b := c.buf
  let ex := excsAt b (byteAt b 3) (dayOffset b 7)
  let raw := b.take ex.2
  if 4096 ≤ n then (some (badField 8), d)
  else if shortBuf c 0x20 then (some (badField 0x28), d)
  else if byteAt b 0 ≠ 1 then (some (fail stVersion (wd (byteAt b 0))), d)
  else if shortBuf c ex.2 then (some (badField 0x28), d)
  else if crc32c (zero4 raw 0x1C) ≠ wordAt b 0x1C then (some (fail stCheckFail (crc32c (zero4 raw 0x1C))), d)
  else match schedFault b ex.1 with
    | some o => (some (badBuf o), d)
    | none =>
      let target := fld (wordAt b 4) 22 0
      let old := (Tab.find d.sched.scheds n).map (·.size)
      match recOf d target with
      | none => (some (fail stNotFound (wd target)), d)
      | some r =>
        if isPredef target && !commandable r then (some (fail stConflict), d)
        else if !loopFits (up64 ex.2) (old.getD 0) d then (some (fail stNoCapacity), d)
        else
          let s : Sched :=
            { prio := byteAt b 1, rule := byteAt b 2, target := target, dflt := wordAt b 8,
              days := (List.range 7).map fun k => transAt b (dayOffset b k) (dayCount b k),
              excs := ex.1.map Prod.snd, authorised := authorised c, size := up64 ex.2 }
          let s := { s with next := nextChange d s (presentAt d s (utcNow d)) (utcNow d) }
          (some (okWith (wd (minutesTo d s))), putSched n s d)

def schedReadCmd (c : HostCmd) (d : Dev) : Option Done × Dev :=
  let m := fld c.p0 1 0
  if 4096 ≤ c.target.toNat then (some (badField 8), d)
  else if m = 3 then (some (badField 0x10), d)
  else
    let v := schedRead d c.target.toNat m
    (some (okWith v.1 (wd v.2)), d)

/-! ## CAL_LOAD, LOCALTIME_LOAD (R181, R182, R187) -/

def calLoad (c : HostCmd) (d : Dev) : Option Done × Dev :=
  let n := c.target.toNat
  if 64 ≤ n then (some (badField 8), d)
  else if shortBuf c 512 then (some (badField 0x28), d)
  else
    let ws := (List.range 128).map fun i => wordAt c.buf (4 * i)
    match (List.range 64).findSome? fun i =>
        (calEntryFault (ws.getD (2 * i) 0) (ws.getD (2 * i + 1) 0)).map (8 * i + ·) with
    | some o => (some (badBuf o), d)
    | none =>
      let d := { d with sched := { d.sched with cals := Tab.put d.sched.cals n ws } }
      (some ok, evalScheds true (fun s => s.excs.any fun e => !e.inline && e.cal == n) d)

/-- A START or END word of a rule: offset of the first byte at fault. -/
def changeFault (w : Word) : Option Nat :=
  if fld w 3 0 = 0 ∨ 12 < fld w 3 0 ∨ fld w 6 4 = 0 ∨ 5 < fld w 6 4 ∨ bit w 7 then some 0
  else if fld w 10 8 = 0 ∨ fld w 15 11 ≠ 0 then some 1
  else if 1439 < fld w 26 16 then some 2
  else if fld w 31 27 ≠ 0 then some 3
  else none

def ruleFault (r : List Word) : Option Nat :=
  let w := ruleWord r 0
  let s := sgn 16 (fld w 15 0)
  if s < -720 ∨ 840 < s then some 0
  else if 120 < fld w 31 16 then some 2
  else firstSome
    [if fld w 31 16 = 0 then none else (changeFault (ruleWord r 1)).map (4 + ·),
     if fld w 31 16 = 0 then none else (changeFault (ruleWord r 2)).map (8 + ·),
     if ruleWord r 3 ≠ 0#32 then some 12 else none]

def localtimeLoad (c : HostCmd) (d : Dev) : Option Done × Dev :=
  let n := c.target.toNat
  let k := c.count.toNat
  if 16 ≤ n then (some (badField 8), d)
  else if 16 < n + k then (some (badField 0x0C), d)
  else if shortBuf c (16 * k) then (some (badField 0x28), d)
  else
    let rs := (List.range k).map fun i => (List.range 4).map fun j => wordAt c.buf (16 * i + 4 * j)
    match (List.range k).findSome? fun i => (ruleFault (rs.getD i [])).map (16 * i + ·) with
    | some o => (some (badBuf o), d)
    | none =>
      let d := forRange k (fun i d => { d with sched := { d.sched with rules := Tab.put d.sched.rules (n + i) (rs.getD i []) } }) d
      (some ok, evalScheds true (fun s => decide (n ≤ s.rule ∧ s.rule < n + k)) d)

/-! ## Commands -/

def execScheduleEvaluation (s : State) := run scheduleEvaluation s
def execSchedLoad (c : HostCmd) (s : State) := run (hostExec 0x0404 schedLoad c) s
def execSchedRead (c : HostCmd) (s : State) := run (hostExec 0x0405 schedReadCmd c) s
def execCalLoad (c : HostCmd) (s : State) := run (hostExec 0x0406 calLoad c) s
def execLocaltimeLoad (c : HostCmd) (s : State) := run (hostExec 0x0407 localtimeLoad c) s

end Sys2Proof.Machine
end

