-- ==== Sys2Proof/Machine/ZoneModel.lean ====
section
/-! DEFINITION. ZoneModel: the zone record's fields (R139), the thermal model and its identification (R144, R145),
weather, forecast, optimal times and offset (R153–R157), and the zone quantities (R136). -/
namespace Sys2Proof.Machine

/-! ## Fields -/

def zStep (z : Zone) : Nat := let h := fld (zWord z 0) 15 0; if h = 0 then 60 else h
def zRoped (z : Zone) : Bool := bit (zWord z 0) 21
def zSite (z : Zone) : Nat := fld (zWord z 0) 19 16
def orElse (v dflt : Word) : Word := if F32.isZero v then dflt else v
def zResThr (z : Zone) : Word := orElse (zWord z 0x08) (F32.rat 3 10)
def zSubThr (z : Zone) : Word := orElse (zWord z 0x0C) (F32.rat 25 10)
def zTheta (z : Zone) : List Word := (List.range 6).map fun n => zWord z (0x150 + 4 * n)
def zPhi (z : Zone) : List Word := (List.range 6).map fun n => zWord z (0x168 + 4 * n)
def zTa (z : Zone) : Word := zWord z 0x140
def zTm (z : Zone) : Word := zWord z 0x144
def zModel (z : Zone) : Nat := fld (zWord z 0x14C) 31 30
def zOccupied (z : Zone) : Bool := fld (zWord z 0x14C) 29 28 == 1
def zAirQ (z : Zone) : Nat := fld (zWord z 0x14C) 27 24
def zConf (z : Zone) : Nat := fld (zWord z 0x14C) 15 0
def zSstate (z : Zone) (i : Nat) : Nat := fld (zWord z (0xE0 + 8 * i)) 31 24
def zSchedEn (z : Zone) : Bool := bit (zWord z 0x28) 12
def zSched (z : Zone) : Nat := fld (zWord z 0x28) 11 0
def absentId : Nat := 0x7FFFFF

/-- The field with bits h:l of the word at `off` replaced. -/
def zField (off h l v : Nat) (z : Zone) : Zone := zPut off (setFld (zWord z off) h l v) z

def zPutList (off : Nat) (ws : List Word) (z : Zone) : Zone :=
  (ws.foldl (fun (a : Nat × Zone) w => (a.1 + 4, zPut a.1 w a.2)) (off, z)).2

/-- Word 0x1FC covers the rest; while RCHECK does not stand its value is open (log entry 7). -/
def zoneBytes (zid : Nat) (z : Zone) : List Byte :=
  wordsBytes (((List.range 127).map fun i => zWord z (4 * i)) ++
    [if z.sound then zoneCheck z else Config.free (0x20000000 + zid)])

/-- Supply term in use for x4 (R144). -/
def zSupply (z : Zone) : Bool := fld (zWord z 0x44) 22 0 != absentId && fld (zWord z 0x48) 22 0 != absentId

/-! ## Inputs -/

/-- A member point as the snapshot serves it: none where the member is absent. -/
def member (d : Dev) (w : Word) : Option Val :=
  let id := fld w 22 0
  if id = absentId then none
  else match recOf d id with
    | some r => some (r.value, if checkOk id r then recQ r else qFault)
    | none => some (F32.nan, qUncom)

/-- Every point the zone reads. -/
def memberIds (d : Dev) (z : Zone) : List Nat :=
  let offs := (List.range 4).map (0x34 + 4 * ·) ++ [0x44, 0x48, 0x4C, 0x50] ++ (List.range 8).map (0x54 + 4 * ·)
  let site := (Tab.find d.zones.sites (zSite z)).map fun s => [s.outdoor, s.solar]
  ((offs.map fun o => fld (zWord z o) 22 0) ++ site.getD []).filter (· != absentId)

/-- Linear interpolation in a site table at a wall second: To and irradiance, none outside the table (R153). -/
def weatherAt (s : Site) (t : Nat) : Option (Word × Word) :=
  let n := s.rows.length
  let a := s.start.toNat
  if n = 0 ∨ t < a ∨ a + 900 * (n - 1) < t then none
  else
    let k := (t - a) / 900
    let r0 := s.rows.getD k (0, 0)
    let r1 := s.rows.getD (k + 1) r0
    let f := F32.div (F32.ofNat ((t - a) % 900)) (F32.ofNat 900)
    let mix := fun x y => F32.add x (F32.mul f (F32.sub y x))
    some (mix r0.1 r1.1, mix r0.2 r1.2)

/-- To at a step of wall second `w`: the outdoor point, else the weather table; none where neither can be used (R144). -/
def outdoorAt (d : Dev) (z : Zone) (w : Nat) : Option Word :=
  match Tab.find d.zones.sites (zSite z) with
  | none => none
  | some s =>
    match member d (wd s.outdoor) with
    | some v => if usable v then some v.1 else (weatherAt s w).map Prod.fst
    | none => (weatherAt s w).map Prod.fst

/-- x6 at a step: the solar point, else the table, else 0; the flag says that a present input was unusable. -/
def solarAt (d : Dev) (z : Zone) (w : Nat) : Word × Bool :=
  match Tab.find d.zones.sites (zSite z) with
  | none => (F32.zero, false)
  | some s =>
    let tab := ((weatherAt s w).map Prod.snd).getD F32.zero
    match member d (wd s.solar) with
    | some v => if usable v then (F32.div v.1 (F32.ofNat 1000), false) else (F32.div tab (F32.ofNat 1000), true)
    | none => (F32.div tab (F32.ofNat 1000), false)

/-- An input that counts as 0 when absent or unusable, with the flag of an unusable one. -/
def zeroOr (v : Option Val) : Word × Bool :=
  match v with
  | none => (F32.zero, false)
  | some x => if usable x then (x.1, false) else (F32.zero, true)

def heatPos (d : Dev) (z : Zone) : Word × Bool :=
  let v := zeroOr (member d (zWord z 0x4C))
  (F32.div v.1 F32.hundred, v.2)

/-- x4 (R144). -/
def coolTerm (d : Dev) (z : Zone) (ta : Word) : Word × Bool :=
  if zSupply z then
    let s := zeroOr (member d (zWord z 0x44))
    let f := zeroOr (member d (zWord z 0x48))
    if s.2 || f.2 then (F32.zero, true)
    else (F32.div (F32.mul f.1 (F32.sub s.1 ta)) (F32.ofNat 1000), false)
  else
    let v := zeroOr (member d (zWord z 0x50))
    (F32.div v.1 F32.hundred, v.2)

/-- The regressors of a step (R144), and whether an input was unusable. -/
def regressors (d : Dev) (z : Zone) (w : Nat) (toW : Option Word) : List Word × Bool :=
  let ta := zTa z
  let h := heatPos d z
  let c := coolTerm d z ta
  let s := solarAt d z w
  ([F32.sub (zTm z) ta, F32.sub (toW.getD z.toW) ta, h.1, c.1, zWord z 0x13C, s.1], toW.isNone || h.2 || c.2 || s.2)

/-! ## Identification (R145) -/

/-- Index of P(i, j) in the upper triangle by rows. -/
def triIndex (i j : Nat) : Nat :=
  let a := min i j
  let b := max i j
  a * 6 - a * (a - 1) / 2 + (b - a)

def zP (z : Zone) (i j : Nat) : Word := zWord z (0x180 + 4 * triIndex i j)

def trace (z : Zone) : Word := F32.sum ((List.range 6).map fun i => zP z i i)

def upper : List (Nat × Nat) := (List.range 6).flatMap fun i => ((List.range 6).filter (i ≤ ·)).map fun j => (i, j)

/-- θ within its physical signs. -/
def project (supply : Bool) (n : Nat) (v : Word) : Word :=
  match n with
  | 0 | 1 => F32.clamp v F32.zero F32.one
  | 3 => if supply then F32.max v F32.zero else F32.min v F32.zero
  | _ => F32.max v F32.zero

/-- One recursive least squares update towards `y`. -/
def identify (y : Word) (z : Zone) : Zone :=
  let phi := zPhi z
  let th := zTheta z
  let lam := zWord z 0x04
  let e := F32.sub y (F32.dot phi th)
  let pphi := (List.range 6).map fun i => F32.dot ((List.range 6).map (zP z i)) phi
  let den := F32.add lam (F32.dot phi pphi)
  let g := pphi.map fun x => F32.div x den
  let th' := (List.range 6).map fun n => project (zSupply z) n (F32.add (th.getD n 0) (F32.mul (g.getD n 0) e))
  let p' := upper.map fun ij =>
    F32.div (F32.sub (zP z ij.1 ij.2) (F32.mul (g.getD ij.1 0) (pphi.getD ij.2 0))) lam
  let rv := F32.add (F32.mul lam (zWord z 0x148)) (F32.mul (F32.mul (F32.sub F32.one lam) e) e)
  let z := zPut 0x148 rv (zPutList 0x180 p' (zPutList 0x150 th' z))
  let tr := trace z
  if F32.gt tr (F32.ofNat 10000) then
    let k := F32.div (F32.ofNat 10000) tr
    zPutList 0x180 (upper.map fun ij => F32.mul (zP z ij.1 ij.2) k) z
  else z

/-- P = `v`·I. -/
def setCov (v : Word) (z : Zone) : Zone :=
  zPutList 0x180 (upper.map fun ij => if ij.1 = ij.2 then v else F32.zero) z

/-! ## Forecast (R154–R157) -/

/-- Occupancy that schedule SCHED gives at a UTC second. -/
def schedOcc (d : Dev) (z : Zone) (u : Int) : Bool :=
  match Tab.find d.sched.scheds (zSched z) with
  | none => false
  | some s => let v := presentAt d s u; v != nullWord && truth v

/-- x1–x6 of the model at a wall second of the forecast, `drive` replacing x3 and x4. -/
def fcRegs (d : Dev) (z : Zone) (drive : Option (Word × Word)) (t : Nat) (ta tm : Word) : List Word :=
  let w := (Tab.find d.zones.sites (zSite z)).bind fun s => weatherAt s t
  let toW := (w.map Prod.fst).getD (z.fc.getD 0 0)
  let sol := F32.div ((w.map Prod.snd).getD F32.zero) (F32.ofNat 1000)
  let occ := if zSchedEn z then schedOcc d z t else z.fc.getD 4 0 == F32.one
  let x5 := if zSchedEn z then F32.ofBool occ else z.fc.getD 3 0
  let x34 := drive.getD (if occ then (z.fc.getD 1 0, z.fc.getD 2 0) else (F32.zero, F32.zero))
  [F32.sub tm ta, F32.sub toW ta, x34.1, x34.2, x5, sol]

/-- `n` model steps from state (ta, tm), the first at wall second `t`: the state after each, the start included. -/
def fcRun (d : Dev) (z : Zone) (drive : Option (Word × Word)) : Nat → Nat → Word → Word → List (Word × Word)
  | 0, _, ta, tm => [(ta, tm)]
  | n + 1, t, ta, tm =>
    let ta' := F32.add ta (F32.dot (fcRegs d z drive t ta tm) (zTheta z))
    let tm' := F32.add tm (F32.mul (zWord z 0x30) (F32.sub ta tm))
    (ta, tm) :: fcRun d z drive n (t + zStep z) ta' tm'

def fcBase (z : Zone) : Nat := (zWord z 0x1D4).toNat

/-- The trajectory over 48 hours, one state per model step. -/
def trajectory (d : Dev) (z : Zone) : List (Word × Word) :=
  fcRun d z none (172800 / zStep z) (fcBase z) (zWord z 0x1D8) (zWord z 0x1DC)

/-- The trajectory's state `sec` seconds after FC_BASE. -/
def atSec (z : Zone) (tr : List (Word × Word)) (sec : Nat) : Word × Word := tr.getD (sec / zStep z) (F32.nan, F32.nan)

/-- Minutes after FC_BASE, up to 48 hours, at which the schedule's occupancy changes to `on`. -/
def occChange (d : Dev) (z : Zone) (on : Bool) : Option Nat :=
  if !zSchedEn z then none
  else match Tab.find d.sched.scheds (zSched z) with
    | none => none
    | some s =>
      let u : Int := fcBase z
      let l := u + offsetAt (ruleOf d s.rule) u
      let cand := (((List.range 4).flatMap fun (k : Nat) => changesOn d s (l / 86400 + (k : Int))).map
        (utcOfLocal (ruleOf d s.rule))).filter fun c => decide (u < c ∧ c ≤ u + 172800)
      (cand.find? fun c => schedOcc d z c == on && schedOcc d z (c - 1) != on).map fun c => ((c - u) / 60).toNat

/-- T reached at `to` minutes when the drive starts `m` quarter-hours before. -/
def startTemp (d : Dev) (z : Zone) (tr : List (Word × Word)) (drive : Word × Word) (toW m : Nat) : Word :=
  let s0 := (toW - 15 * m) * 60
  let st := atSec z tr s0
  ((fcRun d z (some drive) (toW * 60 / zStep z - s0 / zStep z) (fcBase z + s0) st.1 st.2).getLastD st).1

/-- START_MIN (R155). -/
def optimalStart (d : Dev) (z : Zone) (tr : List (Word × Word)) : Nat :=
  match occChange d z true with
  | none => 0xFFFF
  | some toW =>
    let t0 := (atSec z tr (toW * 60)).1
    let lo := zWord z 0x10
    let hi := zWord z 0x14
    let cold := F32.lt t0 lo
    if !cold && (!F32.gt t0 hi || zSupply z) then toW
    else
      let edge := if cold then lo else hi
      let drive := if cold then (F32.one, F32.zero) else (F32.zero, F32.one)
      let reach := fun v => if cold then F32.ge v edge else F32.le v edge
      let pre := fld (zWord z 0x18) 31 16
      let temp := fun m => if m = 0 then t0 else startTemp d z tr drive toW m
      match ((List.range (pre / 15)).map (· + 1)).find? fun m => decide (15 * m ≤ toW) && reach (temp m) with
      | none => toW - pre
      | some m =>
        let f := F32.div (F32.sub edge (temp (m - 1))) (F32.sub (temp m) (temp (m - 1)))
        toW - (F32.round (F32.mul (F32.add (F32.ofNat (m - 1)) f) (F32.ofNat 15))).toNat

/-- A stop `m` quarter-hours before the end keeps the zone within its band. -/
def stopOk (d : Dev) (z : Zone) (tr : List (Word × Word)) (te m : Nat) : Bool :=
  let s0 := (te - 15 * m) * 60
  let st := atSec z tr s0
  let lo := F32.sub (zWord z 0x10) (zWord z 0x1C)
  let hi := F32.add (zWord z 0x14) (zWord z 0x1C)
  decide (15 * m ≤ te) &&
  (fcRun d z (some (F32.zero, F32.zero)) (te * 60 / zStep z - s0 / zStep z) (fcBase z + s0) st.1 st.2).all
    fun p => F32.ge p.1 lo && F32.le p.1 hi

/-- STOP_MIN (R156). -/
def optimalStop (d : Dev) (z : Zone) (tr : List (Word × Word)) : Nat :=
  match occChange d z false with
  | none => 0xFFFF
  | some te =>
    let ms := (List.range (fld (zWord z 0x18) 15 0 / 15 + 1)).filter (stopOk d z tr te)
    te - 15 * ms.getLastD 0

/-- OFFSET (R157). -/
def offsetOf (z : Zone) (tr : List (Word × Word)) : Word :=
  let la := let k := fld (zWord z 0x28) 31 28; if k = 0 then 4 else k
  let df := F32.sub (atSec z tr (900 * la)).1 (zTa z)
  let mx := zWord z 0x24
  F32.clamp (F32.neg (F32.mul (zWord z 0x20) df)) (F32.neg mx) mx

/-! ## Quantities (R136) -/

def fcQuality (z : Zone) : Nat := if zModel z = 1 then qGood else qEst

/-- Minutes to a stored time, from the time elapsed since FC_BASE (R156). -/
def minutesLeft (d : Dev) (z : Zone) (stored : Nat) : Nat :=
  if stored = 0xFFFF then 65535 else stored - ((wallTime d).toNat - fcBase z) / 60

def zoneOf (d : Dev) (zid : Nat) : Option Zone := Tab.find d.zones.zones zid

/-- A zone quantity: PARAM1 of the ZONE_READ block. -/
def zoneQuantity (d : Dev) (zid : Nat) (sel : Word) : Val :=
  match zoneOf d zid with
  | none => (F32.nan, qUncom)
  | some z =>
    match fld sel 7 0 with
    | 0 => (zTa z, zAirQ z)
    | 1 => (zWord z 0x1E4, fcQuality z)
    | 2 => (zWord z 0x13C, qGood)
    | 3 => (F32.ofNat (minutesLeft d z (fld (zWord z 0x1E0) 31 16)), fcQuality z)
    | 4 => (F32.ofNat (minutesLeft d z (fld (zWord z 0x1E0) 15 0)), fcQuality z)
    | 5 => (F32.ofNat (zModel z), qGood)
    | _ => ((atSec z (trajectory d z) (900 * fld sel 15 8)).1, fcQuality z)

end Sys2Proof.Machine
end

