-- ==== Sys2Proof/Machine/LoopTable.lean ====
section
/-! DEFINITION. LoopTable: loop images and their checks (R87–R90, R119), admission (R104–R106), tick groups (R94),
starting, stopping, tuning and swapping loops (R110–R114, R359, R364). -/
namespace Sys2Proof.Machine

/-! ## States (R110) -/

def lsLoaded : Nat := 1
def lsRunning : Nat := 2
def lsStopped : Nat := 3
def lsHold : Nat := 4
def lsSwap : Nat := 5

def loopActive (l : Loop) : Bool := (l.st == lsRunning || l.st == lsHold || l.st == lsSwap) && !l.stopping

/-- An evaluation is under way; one that a cluster has counted MISSING holds the loop no longer (R103). -/
def evalOpen (l : Loop) : Bool :=
  match l.running with
  | none => false
  | some x => !((x.a.map (·.missing)).getD false || (x.b.map (·.missing)).getD false)

/-! ## References (R87) -/

def loopTable (d : Dev) (r : LoopRef) : Tab Loop := if r.fast then d.loops.fast else d.loops.fabric

def loopOf (d : Dev) (r : LoopRef) : Option Loop := Tab.find (loopTable d r) r.idx

def putLoop (r : LoopRef) (l : Loop) (d : Dev) : Dev :=
  if r.fast then { d with loops := { d.loops with fast := Tab.put d.loops.fast r.idx l } }
  else { d with loops := { d.loops with fabric := Tab.put d.loops.fabric r.idx l } }

def modLoop (r : LoopRef) (f : Loop → Loop) (d : Dev) : Dev :=
  match loopOf d r with
  | some l => putLoop r (f l) d
  | none => d

def planLoops (d : Dev) : Nat := (d.pe.plan.map (·.loops)).getD 0

/-- The reference of a TARGET, or its failure; `load` for LOOP_LOAD. -/
def loopTarget (load : Bool) (w : Word) (d : Dev) : Option LoopRef × Done :=
  if bit w 31 then
    (if fld w 30 12 ≠ 0 then (none, badField 8) else (some ⟨true, fld w 11 0⟩, ok))
  else if fld w 30 19 ≠ 0 then (none, badField 8)
  else if planLoops d ≤ w.toNat then (none, if load then fail stNoCapacity else fail stNotFound w)
  else (some ⟨false, w.toNat⟩, ok)

def loopSource (d : Dev) (r : LoopRef) (c : Cluster) : Word :=
  srcWord (if r.fast then 3 else 2) (unitOf d c * 1048576 + r.idx)

/-! ## Images (R90, R119) -/

def imgBlocks (b : List Byte) : Nat := byteAt b 2
def imgConsts (b : List Byte) : Nat := byteAt b 0x10
def imgSize (b : List Byte) : Nat := 64 + 32 * imgBlocks b + 4 * imgConsts b

def imgSlots (b : List Byte) : List Block :=
  let n := imgBlocks b
  (List.range n).map fun i => slotAt b (64 + 32 * i) (if i + 1 < n then some (96 + 32 * i) else none)

def imgConstList (b : List Byte) : List Word :=
  (List.range (imgConsts b)).map fun i => wordAt b (64 + 32 * imgBlocks b + 4 * i)

def progOf (b : List Byte) (auth : Bool) : Prog :=
  let f := byteAt b 1
  { resetRegs := f / 32 % 2 == 1, relinquish := f / 16 % 2 == 1, trigger := f / 4 % 4, fast := f / 2 % 2 == 1,
    roped := f % 2 == 1, slots := imgBlocks b, outPrio := byteAt b 3, period := fld (wordAt b 4) 23 0,
    phase := fld (wordAt b 8) 23 0, tolerance := wordAt b 0x0C, homeB := bit (wordAt b 0x10) 8, tag := wordAt b 0x14,
    blocks := imgSlots b, consts := imgConstList b, authorised := auth }

/-- A header rule that is broken: offset. -/
def headerFault (b : List Byte) : Option Nat :=
  let p := progOf b false
  let f := byteAt b 1
  if 64 ≤ f ∨ p.trigger = 3 ∨ (p.fast ∧ (p.trigger ≠ 0 ∨ ¬ p.roped)) then some 1
  else if p.slots = 0 ∨ (if p.fast then 16 else 64) < p.slots then some 2
  else if p.outPrio = 0 ∨ 16 < p.outPrio ∨ p.outPrio = 6 then some 3
  else if byteAt b 7 ≠ 0 ∨ p.period = 0 ∨ (p.fast ∧ 256 ≤ p.period) then some 4
  else if byteAt b 11 ≠ 0 ∨ (if p.fast then 65536 ≤ p.phase else p.period ≤ p.phase) then some 8
  else if !(nonNeg p.tolerance && F32.finite p.tolerance) then some 0x0C
  else if fld (wordAt b 0x10) 31 9 ≠ 0 ∨ (if p.fast then 16 else 64) < imgConsts b then some 0x10
  else ((List.range 36).find? fun i => decide (byteAt b (0x18 + i) ≠ 0)).map (0x18 + ·)

/-- Two equal non-zero TAGs, or two WRITE blocks of one point and priority: the slot of the second, with the field. -/
def pairFault (p : Prog) : Option (Nat × Nat) :=
  let n := p.blocks.length
  let b := fun i => p.blocks.getD i (slotAt [] 0 none)
  (List.range n).findSome? fun i =>
    let y := b i
    if (List.range i).any fun j => decide (y.tag ≠ 0) && (b j).tag == y.tag && (b j).op != opExt && y.op != opExt then some (i, 2)
    else if y.op = opWrite ∧ (List.range i).any fun j =>
        (b j).op == opWrite && writeTarget (b j) == writeTarget y && writePrio p.outPrio (b j) == writePrio p.outPrio y
      then some (i, 0x18)
    else none

/-- An extension slot that follows no owner (R118). -/
def strayExt (p : Prog) (i : Nat) : Bool :=
  (p.blocks.getD i (slotAt [] 0 none)).op == opExt &&
  (i == 0 || !ownsExt (p.blocks.getD (i - 1) (slotAt [] 0 none)).op)

/-- The first BAD_FORMAT of the blocks: offset in the image (R119). -/
def blocksFault (b : List Byte) (p : Prog) : Option Nat :=
  firstSome
    [(List.range p.blocks.length).findSome? fun i =>
       if strayExt p i then some (64 + 32 * i)
       else (slotFault b (64 + 32 * i) p.consts.length (p.blocks.getD i (slotAt [] 0 none))).map (64 + 32 * i + ·),
     (pairFault p).map fun x => 64 + 32 * x.1 + x.2,
     p.blocks.findSome? fun s => (curveFault p.consts s).map fun k => 64 + 32 * p.blocks.length + 4 * k]

/-- The checks of LOOP_LOAD and LOOP_SWAP in order (R87, R90); the program where all pass. -/
def checkImage (r : LoopRef) (c : HostCmd) : Prog ⊕ Done :=
  let b := c.buf
  if shortBuf c 64 then .inr (badField 0x28)
  else if byteAt b 0 ≠ 1 then .inr (fail stVersion (wd (byteAt b 0)))
  else if shortBuf c (imgSize b) then .inr (badField 0x28)
  else
    let raw := b.take (imgSize b)
    let crc := crc32c (zero4 raw 0x3C)
    if crc ≠ wordAt b 0x3C then .inr (fail stCheckFail crc)
    else match headerFault b with
      | some o => .inr (badBuf o)
      | none =>
        let p := progOf b (authorised c)
        if p.fast ≠ r.fast then .inr (badField 8)
        else match blocksFault b p with
          | some o => .inr (badBuf o)
          | none => .inl p

/-! ## Capacity (R104–R106) -/

/-- Sum of two fractions, reduced. -/
def fracAdd (x y : Nat × Nat) : Nat × Nat :=
  let n := x.1 * y.2 + y.1 * x.2
  let m := x.2 * y.2
  let g := Nat.gcd n m
  (n / g, m / g)

/-- x ≤ n -/
def fracLe (x : Nat × Nat) (n : Nat) : Bool := decide (x.1 ≤ n * x.2)

/-- A program's rate in blocks/s as a fraction, reckoned at 65 Hz. -/
def progRate (p : Prog) : Nat × Nat := if p.fast then (p.slots * 130, p.period) else (p.slots * 65, p.period)

def reservedRate (p : Prog) : Nat × Nat := if p.fast || p.roped then progRate p else (0, 1)

def fracMax (x y : Nat × Nat) : Nat × Nat := if x.1 * y.2 < y.1 * x.2 then y else x

/-- What a loop counts in the reserved load: nothing once it stops, the larger of two rates while a swap waits. -/
def loopLoad (l : Loop) : Nat × Nat :=
  if !loopActive l then (0, 1)
  else fracMax (reservedRate l.prog) ((l.next.map reservedRate).getD (0, 1))

/-- Reserved load without the loop `r`. -/
def reservedLoad (d : Dev) (r : LoopRef) (fastOnly : Bool) : Nat × Nat :=
  let sum := fun (fast : Bool) (t : Tab Loop) => t.foldl (fun a p =>
    if r.fast == fast && r.idx == p.1 then a else fracAdd a (loopLoad p.2)) (0, 1)
  if fastOnly then sum true d.loops.fast else fracAdd (sum true d.loops.fast) (sum false d.loops.fabric)

/-- Engine indices that can carry roped work (R92). -/
def ropedIndices (d : Dev) : List Nat :=
  (List.range 4).filter fun i => !retired d (unitLoop .a i) && !retired d (unitLoop .b i)

def admitLimit (d : Dev) : Nat := 3750000 * (ropedIndices d).length

/-- Floor of `n - x`, 0 below. -/
def headroom (n : Nat) (x : Nat × Nat) : Nat := (n * x.2 - x.1) / x.2

/-- The refusal of an admission: `old` is what the loop counts already. The limit of the fast loops is one of LOOP_START
alone (R105, R113). -/
def admission (start : Bool) (r : LoopRef) (p : Prog) (old : Nat × Nat) (d : Dev) : Option Done :=
  let rate := fracMax (reservedRate p) old
  let rest := reservedLoad d r false
  let fastRest := reservedLoad d r true
  if !(p.fast || p.roped) then none
  else if !fracLe (fracAdd rest rate) (admitLimit d) then
    some (fail stNoCapacity (wd (headroom (admitLimit d) rest)) (wd (unitOf d .a)) 0#32)
  else if start && p.fast && !fracLe (fracAdd fastRest rate) 3750000 then
    some (fail stNoCapacity (wd (headroom 3750000 fastRest)) (wd (unitOf d .a)) 1#32)
  else none

/-! ## Tick groups (R94) -/

def groupOf (d : Dev) (p : Prog) : Option TickGroup :=
  d.loops.groups.find? fun g => g.halves == p.period && g.angle == p.phase

/-- Running members of a group, in slot order. -/
def groupMembers (d : Dev) (g : TickGroup) : List Nat :=
  (d.loops.fast.filter fun p => loopActive p.2 && p.2.prog.period == g.halves && p.2.prog.phase == g.angle).map Prod.fst

/-- The slot joins its group, or the device takes an entry for a new one; none where no entry is free. -/
def joinGroup (slot : Nat) (p : Prog) (d : Dev) : Option Dev :=
  match groupOf d p with
  | some _ => some d
  | none =>
    let e := claimEntry (srcWord 3 slot) d
    match e.1 with
    | none => none
    | some i =>
      let w0 := wd (at' 31 1 + at' 29 1 + at' 20 p.period + at' 16 5 + p.phase)
      let d := (writeEntryAt i w0 0#32 (wd slot) 0#32 e.2).2
      some { d with loops := { d.loops with groups := d.loops.groups ++ [⟨p.period, p.phase, i⟩] } }

/-- Groups without a running member give their entries back. -/
def dropEmptyGroups (d : Dev) : Dev :=
  forEach d.loops.groups (fun g d =>
    if (groupMembers d g).isEmpty then
      releaseEntry g.entry { d with loops := { d.loops with groups := d.loops.groups.filter fun x => x.entry != g.entry } }
    else d) d

/-! ## WRITE targets -/

def progWrites (p : Prog) : List (Nat × Nat) :=
  (p.blocks.filter fun b => b.op == opWrite).map fun b => (writeTarget b, writePrio p.outPrio b)

def guardedWrites (p : Prog) (d : Dev) : Bool := !p.authorised && (progWrites p).any fun t => guardedPoint d t.1

/-- What LOOP_START checks about the blocks (R56, R119). -/
def startFault (p : Prog) (d : Dev) : Option Done :=
  let missing := p.blocks.findSome? fun b =>
    if b.op = opWrite then (if (recOf d (writeTarget b)).isNone then some (writeTarget b) else none)
    else if b.op = 0x53 then (if (Tab.find d.sched.scheds b.p0.toNat).isNone then some b.p0.toNat else none)
    else if b.op = 0x54 then (if (zoneOf d b.p0.toNat).isNone then some b.p0.toNat else none)
    else none
  match missing with
  | some id => some (fail stNotFound (wd id))
  | none =>
    match (progWrites p).find? fun t => isPredef t.1 && !((recOf d t.1).map commandable).getD false with
    | some _ => some (fail stConflict)
    | none => if guardedWrites p d then some (fail stAuthRequired) else none

/-! ## LOOP_LOAD -/

def blankLoop (p : Prog) : Loop := { st := lsLoaded, prog := p }

def loopLoadCmd (c : HostCmd) (d : Dev) : Option Done × Dev :=
  let t := loopTarget true c.target d
  match t.1 with
  | none => (some t.2, d)
  | some r =>
    let old := loopOf d r
    if (old.map fun l => l.st != lsStopped).getD false then (some (fail stConflict), d)
    else match checkImage r c with
      | .inr x => (some x, d)
      | .inl p =>
        if !loopFits (progSize p) ((old.map fun l => progSize l.prog).getD 0) d then
          (some (fail stNoCapacity), d)
        else (some (okWith (wd (progSize p))), putLoop r (blankLoop p) d)

/-! ## LOOP_START -/

/-- The cycle of the first tick (R91, R364). -/
def firstCycle (p : Prog) (d : Dev) : Word :=
  if p.fast then
    ((groupOf d p).bind fun g => (Tab.find d.tb.entries g.entry).map fun e => e.occ.cycle).getD 0#32
  else if p.trigger = 1 then 0#32
  else
    let c := (now d).cycle.toNat + 1
    wd (c + (((p.phase : Int) - (c : Int)) % (p.period : Int)).toNat)

def loopStart (c : HostCmd) (d : Dev) : Option Done × Dev :=
  let t := loopTarget false c.target d
  match t.1 with
  | none => (some t.2, d)
  | some r =>
    match loopOf d r with
    | none => (some (fail stConflict), d)
    | some l =>
      if (l.st ≠ lsLoaded ∧ l.st ≠ lsStopped) then (some (fail stConflict), d)
      else match (startFault l.prog d).or (admission true r l.prog (0, 1) d) with
        | some x => (some x, countRefusal x d)
        | none =>
          let go := { blankLoop l.prog with st := lsRunning, lastEngine := l.lastEngine }
          match (if r.fast then joinGroup r.idx l.prog d else some d) with
          | none => (some (fail stNoCapacity), d)
          | some d => (some (okWith (firstCycle l.prog d)), putLoop r go d)

/-! ## LOOP_STOP (R111) -/

/-- A WRITE slot of the loop is relinquished. -/
def loopRelinquish (r : LoopRef) (auth : Bool) (w : Nat × Nat) (d : Dev) : Dev :=
  enqueue { id := w.1, act := .relinquish w.2, stamp := now d, source := loopSource d r (computeOwner d),
            writer := .inner, authorised := auth } d

/-- The loop works on no engine any longer. -/
def freeEngines (r : LoopRef) (d : Dev) : Dev :=
  { d with loops := { d.loops with busy := d.loops.busy.filter fun x => x.2 != r } }

/-- The loop enters STOPPED; a tune that waited for its next evaluation takes effect (R112), and a LOOP_STOP that waited
completes. -/
def completeStop (r : LoopRef) (d : Dev) : Dev :=
  match loopOf d r with
  | none => d
  | some l =>
    let p := l.tuned.getD l.prog
    let d := freeEngines r (putLoop r { l with
      st := lsStopped, prog := p, a := tuneCopy l.prog p l.a, b := tuneCopy l.prog p l.b, tuned := none, due := none
      woken := false, running := none, stopping := false, stopCmd := none } d)
    let d := if r.fast then dropEmptyGroups d else d
    let d := if p.relinquish then forEach l.wrote (loopRelinquish r p.authorised) d else d
    match l.stopCmd with
    | some c => completeCmd 0x0203 c (okWith (wd lsStopped)) d
    | none => d

def loopStop (c : HostCmd) (d : Dev) : Option Done × Dev :=
  let t := loopTarget false c.target d
  match t.1 with
  | none => (some t.2, d)
  | some r =>
    match loopOf d r with
    | none => (some (fail stConflict), d)
    | some l =>
      if !loopActive l then (some (fail stConflict), d)
      else
        let d := match l.swapCmd with
          | some w => completeCmd 0x0206 w (fail stConflict) d
          | none => d
        let d := modLoop r (fun l => { l with next := none, swapCmd := none, swapDue := false,
                                              st := if l.st = lsSwap then lsRunning else l.st }) d
        if evalOpen l then (none, modLoop r (fun l => { l with stopping := true, due := none, stopCmd := some c }) d)
        else (some (okWith (wd lsStopped)), completeStop r d)

/-! ## LOOP_READ_STATE -/

def copyOf (l : Loop) : Cluster → LoopCopy
  | .a => l.a
  | .b => l.b

def homeOf (p : Prog) : Cluster := if p.homeB then .b else .a

/-- The copy a reader names: the owner's or the other's; a solo loop has its home's alone. -/
def copyNamed (d : Dev) (l : Loop) (other : Bool) : LoopCopy :=
  if l.prog.roped then copyOf l (if other then clOther (computeOwner d) else computeOwner d)
  else if other then {} else copyOf l (homeOf l.prog)

def stateWords (st : Nat) (l : Option Loop) (x : LoopCopy) : List Word :=
  let g := fun (f : Loop → Nat) => wd ((l.map f).getD 0)
  let tick := ((l.map (·.lastTick)).getD ⟨0, 0⟩)
  let done := ((l.map (·.lastDone)).getD ⟨0, 0⟩)
  [wd st, g (·.overrun), g (·.stretch), g (·.mismatch), g (·.missing), g (·.writeFail), tick.cycle,
   wd tick.angle.toNat, done.cycle, wd done.angle.toNat] ++ List.replicate 6 0#32 ++
  (List.range 32).flatMap fun i => let v := Tab.get (0#32, qUncom) x.regs i; [v.1, wd v.2]

def loopReadState (c : HostCmd) (d : Dev) : Option Done × Dev :=
  let t := loopTarget false c.target d
  match t.1 with
  | none => (some t.2, d)
  | some r =>
    if shortBuf c 320 then (some (badField 0x28), d)
    else
      let l := loopOf d r
      let st := (l.map (·.st)).getD 0
      let x := (l.map fun l => copyNamed d l (bit c.p0 0)).getD {}
      (some (okWith (wd st)), outBuf c (wordsBytes (stateWords st l x)) d)

/-! ## LOOP_TUNE (R112, R137, R364) -/

/-- One change applied to a program; none where it names nothing it may change. -/
def tuneChange (slot word : Nat) (v : Word) (p : Prog) : Option Prog :=
  let setB := fun (f : Block → Block) => some { p with blocks := p.blocks.modify slot f }
  if word = 0xFF then some { p with tolerance := v }
  else if 0x40 ≤ word ∧ word < 0x40 + p.consts.length then some { p with consts := p.consts.set (word - 0x40) v }
  else match p.blocks[slot]? with
    | none => none
    | some b =>
      if b.op = opExt then none
      else if word = 0 then
        (if 256 ≤ v.toNat then none else setB fun b => { b with disable := bit v 7, flags := fld v 6 0 })
      else if word = 1 then setB fun b => { b with p0 := v }
      else if word = 2 then setB fun b => { b with p1 := v }
      else if 3 ≤ word ∧ word ≤ 9 ∧ !b.ext.isEmpty then setB fun b => { b with ext := b.ext.set (word - 3) v }
      else none

/-- The field of a change that names nothing: the slot, the value of a flags byte, or the word. -/
def tuneFieldOff (slot word : Nat) (p : Prog) : Nat :=
  match p.blocks[slot]? with
  | none => if word = 0xFF ∨ 0x40 ≤ word then 1 else 0
  | some b => if b.op = opExt then 0 else if word = 0 then 4 else 1

/-- Changes in order: the program, or the byte offset of the first field that is invalid (R356, R364). -/
def tuneAll (b : List Byte) : Nat → Nat → Prog → Prog ⊕ Nat
  | 0, _, p => .inl p
  | n + 1, i, p =>
    if halfAt b (8 * i + 2) ≠ 0 then .inr (8 * i + 2)
    else match tuneChange (byteAt b (8 * i)) (byteAt b (8 * i + 1)) (wordAt b (8 * i + 4)) p with
      | some p => tuneAll b n (i + 1) p
      | none => .inr (8 * i + tuneFieldOff (byteAt b (8 * i)) (byteAt b (8 * i + 1)) p)

/-- A slot of the tuned program breaks its rules. -/
def tunedSlotBad (p : Prog) (i : Nat) : Bool :=
  match p.blocks[i]? with
  | none => false
  | some b =>
    b.op != opExt && ((paramFault p.consts.length b).isSome || (curveFault p.consts b).isSome ||
      (match opSpec b.op with
       | some s => b.flags &&& s.2 != b.flags
       | none => true))

/-- The tuned program breaks a rule: the first change of a slot at fault, else the first change. -/
def tunedFault (b : List Byte) (n : Nat) (p : Prog) : Option Nat :=
  let bad := (List.range p.blocks.length).filter (tunedSlotBad p) ++ ((pairFault p).map Prod.fst).toList
  let tolBad := !(nonNeg p.tolerance && F32.finite p.tolerance)
  if bad.isEmpty && !tolBad then none
  else some (((List.range n).find? fun i =>
    if byteAt b (8 * i + 1) = 0xFF then tolBad else bad.contains (byteAt b (8 * i))).getD 0)

/-- The number of stages of a STAGE changed. -/
def stageChanged (old new : Prog) : Bool :=
  (old.blocks.zip new.blocks).any fun p => p.1.op == opStage && stageCount p.1 != stageCount p.2

def loopTune (c : HostCmd) (d : Dev) : Option Done × Dev :=
  let t := loopTarget false c.target d
  let n := c.count.toNat
  match t.1 with
  | none => (some t.2, d)
  | some r =>
    match loopOf d r with
    | none => (some (fail stConflict), d)
    | some l =>
      if n = 0 ∨ 256 < n then (some (badField 0x0C), d)
      else if shortBuf c (8 * n) then (some (badField 0x28), d)
      else
        let base := l.tuned.getD l.prog
        match tuneAll c.buf n 0 base with
        | .inr o => (some (badBuf o), d)
        | .inl p =>
          if stageChanged base p then (some (fail stConflict), d)
          else match tunedFault c.buf n p with
            | some i => (some (badBuf (8 * i + 4)), d)
            | none =>
              if loopActive l then (some ok, putLoop r { l with tuned := some p } d)
              else (some ok, putLoop r { l with prog := p, a := tuneCopy l.prog p l.a, b := tuneCopy l.prog p l.b } d)

/-! ## LOOP_SWAP (R113, R114) -/

def loopSwapCmd (c : HostCmd) (d : Dev) : Option Done × Dev :=
  let t := loopTarget false c.target d
  match t.1 with
  | none => (some t.2, d)
  | some r =>
    match loopOf d r with
    | none => (some (fail stConflict), d)
    | some l =>
      if !loopActive l ∨ l.st = lsSwap then (some (fail stConflict), d)
      else match checkImage r c with
        | .inr x => (some x, d)
        | .inl p =>
          if !loopFits (progSize p) 0 d then (some (fail stNoCapacity), d)
          else if guardedWrites p d then (some (fail stAuthRequired), countAuth false d)
          else match admission false r p (reservedRate l.prog) d with
            | some x => (some x, d)
            | none => (none, putLoop r { l with st := lsSwap, next := some p, swapCmd := some c } d)

/-- State of each new slot: that of the old slot with its TAG and OP, else its initial one. -/
def carryBlocks (old new : Prog) (st : List (List Word)) : List (List Word) :=
  new.blocks.map fun b =>
    if b.tag = 0 ∨ b.op = opExt then []
    else match (old.blocks.zip st).find? fun x => x.1.tag == b.tag && x.1.op == b.op with
      | some x => x.2
      | none => []

def carryCopy (old new : Prog) (x : LoopCopy) : LoopCopy :=
  { regs := if new.resetRegs then [] else x.regs, blocks := carryBlocks old new x.blocks }

/-- The copies a swapped loop starts from (R114). -/
def swapCopies (d : Dev) (l : Loop) (p : Prog) : LoopCopy × LoopCopy :=
  let c := carryCopy l.prog p
  if l.prog.roped && p.roped then (c l.a, c l.b)
  else
    let src := c (if l.prog.roped then copyOf l (computeOwner d) else copyOf l (homeOf l.prog))
    (src, src)

/-- The swap tick: the new image takes effect, the command completes. A fast loop that finds no entry for its new group
keeps its old program. -/
def applySwap (r : LoopRef) (d : Dev) : Dev :=
  match loopOf d r with
  | none => d
  | some l =>
    match l.next, l.swapCmd with
    | some p, some c =>
      match (if r.fast then joinGroup r.idx p d else some d) with
      | none =>
        completeCmd 0x0206 c (fail stNoCapacity)
          (putLoop r { l with st := lsRunning, next := none, swapCmd := none, swapDue := false } d)
      | some d =>
        let cs := swapCopies d l p
        let gone := if l.prog.relinquish then
            l.wrote.filter fun w => !((progWrites p).any fun t => t.1 == w.1) else []
        let n := { l with st := lsRunning, prog := p, a := cs.1, b := cs.2, next := none, swapCmd := none, swapDue := false, tuned := none, running := none,
                          wrote := l.wrote.filter fun w => !gone.contains w }
        let d := freeEngines r (putLoop r n d)
        let d := if r.fast then dropEmptyGroups d else d
        let d := forEach gone (loopRelinquish r l.prog.authorised) d
        completeCmd 0x0206 c (okWith (now d).cycle) d
    | _, _ => d

/-- The swap tick: at once, or at the end of an evaluation of the old program that is still open (R113). -/
def swapTick (r : LoopRef) (d : Dev) : Dev :=
  match loopOf d r with
  | some l =>
    if l.st ≠ lsSwap then d else if evalOpen l then putLoop r { l with swapDue := true } d else applySwap r d
  | none => d

/-- No evaluation of the loop is open any longer: a stop or a swap that waited for that takes effect (R111, R113). -/
def evalClosed (r : LoopRef) (d : Dev) : Dev :=
  match loopOf d r with
  | some l => if l.stopping then completeStop r d else if l.swapDue then applySwap r d else d
  | none => d

/-! ## Commands -/

def execLoopLoad (c : HostCmd) (s : State) := run (hostExec 0x0201 loopLoadCmd c) s
def execLoopStart (c : HostCmd) (s : State) := run (hostExec 0x0202 loopStart c) s
def execLoopStop (c : HostCmd) (s : State) := run (hostExec 0x0203 loopStop c) s
def execLoopReadState (c : HostCmd) (s : State) := run (hostExec 0x0204 loopReadState c) s
def execLoopTune (c : HostCmd) (s : State) := run (hostExec 0x0205 loopTune c) s
def execLoopSwap (c : HostCmd) (s : State) := run (hostExec 0x0206 loopSwapCmd c) s

end Sys2Proof.Machine
end

