-- ==== Sys2Proof/Machine/LoopExec.lean ====
section
/-! DEFINITION. LoopExec: ticks (R91, R94, R108), evaluation (R97–R99, R121), roped comparison (R100–R103), overruns
(R107), shadow running on a standby (R301). -/
namespace Sys2Proof.Machine

/-- Throttle level 6 or 7 (R108). -/
def hotLevel (d : Dev) : Bool := decide (6 ≤ d.th.level)

/-! ## Ticks -/

/-- A due loop is queued; a further due tick while it waits merges and counts OVERRUN (R107). -/
def queueTick (odd : Bool) (tick : Stamp) (l : Loop) : Loop :=
  if l.due.isSome then
    { l with due := some tick, dueOdd := l.dueOdd && odd, overrun := satAdd 4294967295 l.overrun 1 }
  else { l with due := some tick, dueOdd := odd, late := false }

/-- Tick number k, with the cycle at which it falls due (R91). -/
def periodicDue (p : Prog) (c : Nat) : Bool := p.trigger != 1 && ((c : Int) - (p.phase : Int)) % (p.period : Int) == 0
def tickNumber (p : Prog) (c : Nat) : Int := ((c : Int) - (p.phase : Int)) / (p.period : Int)

def holdLoop (l : Loop) : Loop := { l with due := none, st := if l.st = lsRunning then lsHold else l.st }

def stretchLoop (l : Loop) : Loop := { l with due := none, stretch := satAdd 4294967295 l.stretch 1 }

/-- The tick of a fabric loop at a cycle start of the core die. The first one that is to run takes a new program (R113; log
entry 182). -/
def fabricTick (i : Nat) (d : Dev) : Dev :=
  let r : LoopRef := ⟨false, i⟩
  match loopOf d r with
  | none => d
  | some l =>
    let c := (now d).cycle
    let per := periodicDue l.prog c.toNat
    let ev := l.prog.trigger != 0 && l.woken
    if !loopActive l || !(per || ev) then d
    else
      let odd := per && !ev && tickNumber l.prog c.toNat % 2 != 0
      let l := { l with woken := false }
      if hotLevel d && !l.prog.roped then putLoop r (holdLoop l) d
      else if hotLevel d && odd then putLoop r { l with stretch := satAdd 4294967295 l.stretch 1 } d
      else
        let l := { l with st := if l.st = lsHold then lsRunning else l.st }
        swapTick r (putLoop r (queueTick odd ⟨c, 0#16⟩ l) d)

/-- One fast loop's tick. -/
def tickSlot (tick : Stamp) (i : Nat) (d : Dev) : Dev :=
  let r : LoopRef := ⟨true, i⟩
  match loopOf d r with
  | some l => if loopActive l then swapTick r (putLoop r (queueTick false tick l) d) else d
  | none => d

/-- A dispatch of a FAST_TICK entry ticks every slot of its group (R94); an entry of no group ticks the slot that it names
(R27). -/
def fastTick (entry slot : Nat) (tick : Stamp) (d : Dev) : Dev :=
  forEach (match d.loops.groups.find? fun g => g.entry == entry with
    | some g => groupMembers d g
    | none => [slot]) (tickSlot tick) d

/-- A due fabric loop has not started by the next cycle start (R107). -/
def loopOverrun (r : LoopRef) (d : Dev) : Dev :=
  match loopOf d r with
  | some l =>
    if l.due.isSome && !l.late && !r.fast then
      putLoop r { l with late := true, overrun := satAdd 4294967295 l.overrun 1 } d
    else d
  | none => d

/-- At throttle levels 6 and 7 solo loops that wait do not run, nor does the odd tick of a roped one, which is counted
(R108). -/
def holdLoops (d : Dev) : Dev :=
  let hold := fun (l : Loop) =>
    if !loopActive l then l
    else if !l.prog.roped then holdLoop l
    else if l.due.isSome && l.dueOdd then stretchLoop l
    else l
  if !hotLevel d then d
  else { d with loops := { d.loops with fabric := Tab.mapVals d.loops.fabric fun _ l => hold l } }

/-! ## Engines (R92, R93, R95) -/

def engineCode (c : Cluster) (i : Nat) : Nat := 4 * clNum c + i

/-- An engine can start work: in service, not under test, free; fast work pre-empts fabric work. -/
def engineFree (d : Dev) (fast : Bool) (c : Cluster) (i : Nat) : Bool :=
  !retired d (unitLoop c i) && !testing d (unitLoop c i) && !(track d c).stopped &&
  !(d.loops.busy.any fun x => x.1 == engineCode c i && (x.2.fast || !fast))

/-- The clusters that compute a loop. -/
def clustersOf (p : Prog) : List Cluster := if p.roped then [.a, .b] else [homeOf p]

/-- An engine that carries work of the loop: a pair for roped work, its home's engine for solo work. -/
def engineTakes (d : Dev) (p : Prog) (i : Nat) : Bool :=
  (!p.roped || (ropedIndices d).contains i) && (clustersOf p).all fun c => engineFree d p.fast c i

/-- A due loop that may start. -/
def mayStart (d : Dev) (l : Loop) : Bool :=
  loopActive l && l.due.isSome && !evalOpen l && !(hotLevel d && !l.prog.roped)

/-- Place in the dispatch queue: fast ticks, roped loops, solo loops; in each class those that have waited past the start of
a cycle first, then ascending loop ID (R92, R107; log entry 180). -/
def queuePlace (r : LoopRef) (l : Loop) : Nat :=
  (if r.fast then 0 else if l.prog.roped then 1 else 2) * 2097152 + (if l.late then 0 else 1048576) + r.idx

/-- A loop ahead in the queue is to have the engine. -/
def outranked (r : LoopRef) (l : Loop) (i : Nat) (d : Dev) : Bool :=
  let ahead := fun (x : LoopRef) (m : Loop) =>
    decide (queuePlace x m < queuePlace r l) && mayStart d m && engineTakes d m.prog i &&
      (clustersOf m.prog).any fun c => (clustersOf l.prog).contains c
  (d.loops.fast.any fun p => ahead ⟨true, p.1⟩ p.2) || d.loops.fabric.any fun p => ahead ⟨false, p.1⟩ p.2

/-! ## Snapshot (R95, R97) -/

def blockPoints (b : Block) : List Nat :=
  if b.op = opExt then [] else
    b.ins.filterMap fun r => if fld r 31 30 = 0 ∧ fld r 22 0 ≠ absentId then some (fld r 22 0) else none

/-- Whether a block of the program reads a point from the field die itself (R95). -/
def readsField (p : Prog) (b : Block) (id : Nat) : Bool :=
  p.fast && b.op == opRead && decide (predefBase ≤ id ∧ id < predefBase + 0x400)

/-- The points that an evaluation reads from the store, and those that it reads from the field die. -/
def progInputs (p : Prog) : List Nat :=
  (p.blocks.flatMap fun b => (blockPoints b).filter fun id => !readsField p b id).eraseDups
def directInputs (p : Prog) : List Nat :=
  (p.blocks.flatMap fun b => (blockPoints b).filter fun id => !b.disable && readsField p b id).eraseDups

def snapInput (d : Dev) (id : Nat) : Option SnapIn :=
  (recOf d id).map fun r => ⟨id, r.value, recQ r, r.stamp, r.prio⟩

/-- A point as the field die has it: of a UI the newest VALID word, or what the die captured last; of another point its
last write on the way to the store. Out of service, or with the link down, the record stands (R10, R55, R95). -/
def fieldInput (d : Dev) (id : Nat) : Option SnapIn :=
  (recOf d id).map fun r =>
    let s : SnapIn := ⟨id, r.value, recQ r, r.stamp, r.prio⟩
    let n := id - predefBase
    if outOfService r || d.link.coreLost then s
    else if n < 48 then
      let u := uiOf d n
      match captureSlot d n with
      | some (c, k) =>
        let f := Tab.get 0 (adcOf d c).unsent k
        if f = 0 then { s with value := u.lastValue, quality := u.lastQuality, stamp := u.lastStamp }
        else
          let x := slotReading d c k n f
          { s with value := x.1, quality := x.2.1, stamp := x.2.2 }
      | none => { s with value := u.lastValue, quality := u.lastQuality, stamp := u.lastStamp }
    else match (d.pe.queue.filter fun o => o.id == id && o.writer == .field).getLast? with
      | some o => (match o.act with
        | .write v q _ _ => { s with value := v, quality := q, stamp := o.stamp }
        | .quality q => { s with quality := q }
        | _ => s)
      | none => s

/-! ## Evaluation -/

/-- Nominal interval in ac (R121). -/
def nominalAc (p : Prog) : Nat := if p.fast then p.period * 32768 else p.period * 65536

/-- dt (R121). -/
def dtOf (d : Dev) (l : Loop) (p : Prog) (tick : Stamp) : Word :=
  let nom := nominalAc p
  let ac : Int := match l.prevTick with
    | none => nom
    | some t => min (stampDiff tick t) (4 * nom)
  secsOfAc d (max 0 ac)

def envOf (d : Dev) (l : Loop) (p : Prog) (tick : Stamp) : Env :=
  let at'' := now d
  { consts := p.consts, snap := (progInputs p).filterMap (snapInput d)
    direct := (directInputs p).filterMap (fieldInput d), at' := at''
    age := fun s => secsOfAc d (stampDiff at'' s), dt := dtOf d l p tick, outPrio := p.outPrio, sched := schedRead d
    zone := zoneQuantity d, kind := fun id => (recOf d id).map fun r => (r.kind, statesOf r) }

/-- The program of a loop's next evaluation, with the copies it starts from (R112). -/
def takeTune (l : Loop) : Loop :=
  let p := l.tuned.getD l.prog
  { l with a := tuneCopy l.prog p l.a, b := tuneCopy l.prog p l.b, prog := p, tuned := none }

/-- A loop that may start begins its evaluation on engine index `i`: the snapshot verifies every check of the points it
reads, and a READ from the field die takes its word (R97, R112, R210). -/
def beginEval (r : LoopRef) (l : Loop) (tick : Stamp) (i : Nat) (d : Dev) : Dev :=
  let l := takeTune l
  let p := l.prog
  let d := forEach (progInputs p) (fun id d => (readRec id d).2) d
  let l := { l with woken := ((loopOf d r).map (·.woken)).getD l.woken }
  let e := envOf d l p tick
  let part := fun c => if (clustersOf p).contains c then
      some (let x := evalProg e p (copyOf l c); ({ copy := x.1, writes := x.2 } : Part)) else none
  let run : Running := { tick := tick, engine := i, a := part .a, b := part .b }
  let busy := d.loops.busy.filter (fun x => x.2 != r) ++ (clustersOf p).map fun c => (engineCode c i, r)
  forEach (directInputs p) takeField
    (putLoop r { l with due := none, late := false, running := some run, prevTick := some tick, lastTick := tick
                        lastEngine := i } { d with loops := { d.loops with busy := busy } })

/-- A due loop gets engine index `i`, once no loop ahead of it is to have it and the point engine serves its snapshot
(R65, R92, R95). -/
def evalStart (r : LoopRef) (i : Nat) (d : Dev) : Dev :=
  match loopOf d r with
  | none => d
  | some l =>
    match l.due with
    | none => d
    | some tick =>
      if mayStart d l && engineTakes d l.prog i && pipesServe d && !outranked r l i d then beginEval r l tick i d else d

/-! ## Writes (R98, R100, R301) -/

/-- The loop runs in shadow: on a standby, when it writes anything but the device's own predefined points. -/
def shadow (d : Dev) (p : Prog) : Bool :=
  d.pair.enabled && d.pair.role == 3 && (progWrites p).any fun t => !isPredef t.1

/-- A cluster's claim as its writes carry it. -/
def writeClaim (d : Dev) (c : Cluster) : Half := if liveClaim d c = 0#16 then fullClaim d c else liveClaim d c

/-- One write of a cluster's part, with the check its engine has made and the stamp at which it ended (R98, R100). -/
def issueWrite (r : LoopRef) (c : Cluster) (auth roped : Bool) (p : Part) (w : LoopWrite) (d : Dev) : Dev :=
  enqueue { id := w.id, act := .write w.value w.quality (some (pointCheck w.id w.value w.quality w.kind)) w.prio
            stamp := p.ended, source := loopSource d r c, writer := .inner, authorised := auth, roped := roped
            claim := p.claim, loop := some r } d

/-- The writes of a part, in slot order, with the record of what the loop wrote. -/
def issueAll (r : LoopRef) (c : Cluster) (roped : Bool) (p : Part) (d : Dev) : Dev :=
  match loopOf d r with
  | none => d
  | some l =>
    if shadow d l.prog then d
    else
      let seen := (p.writes.map fun w => (w.id, w.prio)).filter fun x => !l.wrote.contains x
      let d := putLoop r { l with wrote := l.wrote ++ seen } d
      forEach p.writes (issueWrite r c l.prog.authorised roped p) d

/-- The evaluation is over: mirroring (R300), and what waited for its end. -/
def evalDone (r : LoopRef) (d : Dev) : Dev :=
  let d := modLoop r (fun l => { l with running := none }) d
  let d := if d.pair.enabled && !d.pair.dirtyLoops.contains r then
      { d with pair := { d.pair with dirtyLoops := d.pair.dirtyLoops ++ [r] } } else d
  evalClosed r d

def partOf (x : Running) : Cluster → Option Part
  | .a => x.a
  | .b => x.b

def setPart (c : Cluster) (p : Part) (x : Running) : Running :=
  match c with
  | .a => { x with a := some p }
  | .b => { x with b := some p }

def setCopy (c : Cluster) (x : LoopCopy) (l : Loop) : Loop :=
  match c with
  | .a => { l with a := x }
  | .b => { l with b := x }

/-- A faulty engine's results: its values come out with `u` in error. -/
def upsetWrites (u : Option Word) (ws : List LoopWrite) : List LoopWrite :=
  match u with
  | none => ws
  | some x => ws.map fun w => { w with value := w.value ^^^ x }

/-- The cluster's engine is at work on the loop: not taken out of service, and no fast loop has pre-empted it (R95, R103). -/
def atWork (d : Dev) (r : LoopRef) (c : Cluster) (i : Nat) : Bool :=
  let mine := d.loops.busy.filter fun b => b.1 == engineCode c i
  mine.any (fun b => b.2 == r) && (r.fast || !mine.any fun b => b.2.fast)

/-- One cluster ends its evaluation, the loop's last completion (R364); a solo loop issues its writes (R98). -/
def evalEnd (r : LoopRef) (c : Cluster) (u : Option Word) (d : Dev) : Dev :=
  match loopOf d r with
  | none => d
  | some l =>
    match l.running with
    | none => d
    | some x =>
      match partOf x c with
      | none => d
      | some p =>
        if p.done || !atWork d r c x.engine then d
        else
          let p := { p with done := true, ended := now d, own := decide (c = computeOwner d), claim := writeClaim d c
                            writes := upsetWrites u p.writes }
          let l := setCopy c p.copy { l with running := some (setPart c p x), lastDone := now d }
          let d := putLoop r l { d with loops := { d.loops with
            busy := d.loops.busy.filter fun b => !(b.2 == r && b.1 == engineCode c x.engine) } }
          if (clustersOf l.prog).length = 1 then evalDone r (issueAll r c false p d)
          else d

/-! ## Comparison (R101, R102) -/

def outMatches (tol : Word) (o p : LoopWrite) : Bool :=
  o.id == p.id && o.quality == p.quality &&
  (o.quality == qFault ||
   (if o.kind = 1 ∨ o.kind = 2 ∨ o.kind = 3 ∨ o.kind = 10 then
      o.value == p.value ||
      F32.le (F32.abs (F32.sub o.value p.value)) (if F32.isZero o.tolerance then tol else o.tolerance)
    else o.value == p.value))

def allMatch (tol : Word) (os ps : List LoopWrite) : Bool :=
  decide (os.length = ps.length) && (os.zip ps).all fun x => outMatches tol x.1 x.2

/-- The part of the cluster that owned at the end of its evaluation: where ownership changed between the two ends, both or
neither may have (R100, R103; log entry 183). -/
def ownPart (d : Dev) (a b : Part) : Option Cluster :=
  if a.own && b.own then some (computeOwner d) else if a.own then some .a else if b.own then some .b else none

/-- The peer's results are there: compare, apply the owner's writes. -/
def peerArrival (r : LoopRef) (d : Dev) : Dev :=
  match loopOf d r with
  | none => d
  | some l =>
    match l.running with
    | some ⟨_, eng, some a, some b⟩ =>
      if !(a.done && b.done) then d
      else match ownPart d a b with
      | none => evalDone r d
      | some c =>
        let own := if c = .a then a else b
        let other := if c = .a then b else a
        if own.missing then evalDone r d
        else
          let d := issueAll r c true own d
          let d := if allMatch l.prog.tolerance own.writes other.writes then d
            else
              let d := modLoop r (fun l => setCopy (clOther c) own.copy
                { l with mismatch := satAdd 4294967295 l.mismatch 1 }) d
              errorTest (unitLoop .b eng) (errorTest (unitLoop .a eng) d)
          evalDone r d
    | _ => d

/-- When cluster `c` gives up waiting for its peer's results: 1 ms after its own (R103). -/
def peerDue (d : Dev) (r : LoopRef) (c : Cluster) : Option Stamp :=
  match ((loopOf d r).bind (·.running)).bind (partOf · c) with
  | some p => if p.done && !p.missing then some (stPlus p.ended (acOfUs d 1000)) else none
  | none => none

/-- The peer's results have not come 1 ms after cluster `c` ended its own: the evaluation counts MISSING once, and the owner
applies its results alone (R103). -/
def peerTimeout (r : LoopRef) (c : Cluster) (d : Dev) : Dev :=
  match loopOf d r with
  | none => d
  | some l =>
    match l.running with
    | none => d
    | some x =>
      match partOf x c, partOf x (clOther c) with
      | some p, some q =>
        if !p.done || p.missing then d
        else
          let d := putLoop r { l with
            missing := if q.missing then l.missing else satAdd 4294967295 l.missing 1
            running := some (setPart c { p with missing := true } x) } d
          evalClosed r (if p.own then issueAll r c false p d else d)
      | _, _ => d

/-- An engine retired while it computes (R103): a solo evaluation is abandoned; of a roped one its part never ends. -/
def abandonEngine (c : Cluster) (i : Nat) (d : Dev) : Dev :=
  let hit := (d.loops.busy.filter fun b => b.1 == engineCode c i).map Prod.snd
  let d := { d with loops := { d.loops with busy := d.loops.busy.filter fun b => b.1 != engineCode c i } }
  forEach hit (fun r d =>
    match loopOf d r with
    | some l => if l.prog.roped then d
        else
          evalClosed r (putLoop r { l with running := none } d)
    | none => d) d

/-! ## Commands -/

def execFabricLoopTick (loop : Nat) (s : State) := run (fun d => settle (fabricTick loop d)) s
def execLoopEvaluationStart (ref : LoopRef) (engine : Fin 4) (s : State) :=
  run (fun d => settle (evalStart ref engine.val d)) s
def execLoopEvaluationEnd (ref : LoopRef) (on : Cluster) (upset : Option Word) (s : State) := run (evalEnd ref on upset) s
def execLoopOverrun (ref : LoopRef) (s : State) := run (loopOverrun ref) s

end Sys2Proof.Machine
end

