-- ==== Sys2Proof/Machine/Stage.lean ====
section
/-! DEFINITION. Stage: what every output stage does with a delivery before it acts (R222, R287, R312, R383), the full
refresh of one output (R293), wear counters counted by the device (R239, R400, R424). -/
namespace Sys2Proof.Machine

/-- The device counts up a wear counter; during the power-up scan and while a power-fail warning is in force the increment
is held (R400, R419, R421, R425). -/
def wearUp (k : Nat) (d : Dev) : Dev :=
  if d.nvm.hold || !d.nvm.scanDone then
    { d with nvm := { d.nvm with heldIncs := Tab.put d.nvm.heldIncs k (Tab.get 0 d.nvm.heldIncs k + 1) } }
  else
    { d with nvm := { d.nvm with counters := Tab.put d.nvm.counters k (min 1099511627775 (Tab.get 0 d.nvm.counters k + 1)) } }

/-- What a stage answers to a delivery. -/
inductive StageRes
  | accepted | refused | envelope (limit : Word) | badCheck
  deriving DecidableEq, Repr

def countRefused (k : Nat) (d : Dev) : Dev :=
  { d with belay := { d.belay with refused := Tab.put d.belay.refused k (satAdd 65535 (Tab.get 0 d.belay.refused k) 1) } }

/-- The delivery's point check verifies (step 1 of R222). -/
def deliveryOk (d : Dev) (x : Delivery) : Bool :=
  decide (x.quality < 8) &&
  x.check == pointCheck x.id x.value x.quality (((recOf d x.id).map (·.kind)).getD 0)

/-- The claim equals BELAY_OWNER, and a stage that is not NORMAL takes its refresh only (step 2 of R222; R287, R292). -/
def claimOk (d : Dev) (k : Nat) (x : Delivery) : Bool :=
  decide (x.claim ≠ 0#16) && x.claim == d.belay.owner && (x.refresh || stageState d k == 0)

/-- The three gates of R222 before the stage acts; none when the delivery passes. -/
def gates (k : Nat) (x : Delivery) (d : Dev) : Option StageRes :=
  if !deliveryOk d x then some .badCheck
  else if !claimOk d k x then some .refused
  else match envelopeBreak d x.id x.value with
    | some l => some (.envelope l)
    | none => none

/-- A check that fails at a stage: the engine reads the record again and delivers it once more; a second refusal tests
both pipelines (R312). -/
def redeliver (x : Delivery) (d : Dev) : Dev :=
  if x.again then errorTest unitPipes d
  else
    let y := readRec x.id d
    match y.1 with
    | some (r, true) =>
      let z := { x with value := r.value, quality := recQ r, check := r.check, stamp := r.stamp, again := true }
      { y.2 with pe := { y.2.pe with deliveries := z :: y.2.pe.deliveries } }
    | _ => y.2

/-- The refresh of one output: the kept quality is restored with a new check under R52, and the record is read for delivery
(R51, R293). -/
def refreshRecord (x : Delivery) (d : Dev) : Delivery × Dev :=
  let d := match Tab.find d.pe.kept x.id, recOf d x.id with
    | some q, some r =>
      let d := { d with pe := { d.pe with kept := Tab.del d.pe.kept x.id } }
      if checkOk x.id r then afterStore x.id (putRec x.id r (withCheck x.id (setQ r q)) d) else failRecord x.id r d
    | _, _ => d
  let d := (readRec x.id d).2
  match recOf d x.id with
  | some r => ({ x with value := r.value, quality := recQ r, check := r.check, stamp := r.stamp }, d)
  | none => (x, d)

/-- The output is out of service: its stage holds what it last applied (R55). -/
def heldBack (d : Dev) (id : Nat) : Bool := ((recOf d id).map outOfService).getD false

/-- One delivery at stage `k`: gates, then `act` with the value; a refresh that is accepted, refused by its envelope or
meets a point out of service ends HELD (R293, R383). -/
def stageTake (k : Nat) (act : Word → Dev → Bool × Dev) (x : Delivery) (d : Dev) : StageRes × Dev :=
  let p := if x.refresh && !x.again && x.claim == d.belay.owner then refreshRecord x d else (x, d)
  let x := p.1
  let d := p.2
  let open' := fun d => if x.refresh then setStage k 0 d else d
  if x.refresh && heldBack d x.id && x.claim == d.belay.owner then (.accepted, open' d)
  else match gates k x d with
    | some .badCheck => (.badCheck, redeliver x d)
    | some (.envelope l) => (.envelope l, open' (countEnvelope x.id d))
    | some r => (r, countRefused k d)
    | none =>
      let r := act x.value (open' d)
      (if r.1 then .accepted else .refused, r.2)

/-- The next delivery of a point, taken from those on their way. -/
def popDelivery (id : Nat) (d : Dev) : Option Delivery × Dev :=
  match d.pe.deliveries.find? fun x => x.id == id with
  | none => (none, d)
  | some x => (some x, { d with pe := { d.pe with deliveries := d.pe.deliveries.erase x } })

/-- RATE of an envelope, 0 for none (R384). -/
def rateOf (d : Dev) (id : Nat) : Word := ((envelopeOf d id).map (·.rate)).getD 0#32

/-- One rate-limit update: at most RATE·Δt towards the target (R384). -/
def slewTo (applied target rate : Word) (dtUs : Nat) : Word :=
  if F32.isZero rate then target
  else
    let step := F32.mul rate (F32.div (F32.ofNat dtUs) (F32.ofNat 1000000))
    if F32.le (F32.abs (F32.sub target applied)) step then target
    else if F32.gt target applied then F32.add applied step else F32.sub applied step

end Sys2Proof.Machine
end

