-- ==== Sys2Proof/Machine/Coil.lean ====
section
/-! DEFINITION. Coil: the coil banks (R217–R239). Channel states: 0 OFF, 1 DEFERRED, 2 PULL_IN, 3 HOLD, 4 RELEASE,
5 FAULT. -/
namespace Sys2Proof.Machine

def chanOf (d : Dev) (ch : Nat) : Chan := Tab.get {} d.coil.chans ch
def setChan (ch : Nat) (c : Chan) (d : Dev) : Dev :=
  { d with coil := { d.coil with chans := Tab.set {} d.coil.chans ch c } }
def bankOf (d : Dev) (b : Nat) : Bank := Tab.get {} d.coil.banks b
def setBank (b : Nat) (x : Bank) (d : Dev) : Dev :=
  { d with coil := { d.coil with banks := Tab.set {} d.coil.banks b x } }
def modChan (ch : Nat) (f : Chan → Chan) (d : Dev) : Dev := setChan ch (f (chanOf d ch)) d

def bankChans (b : Nat) : List Nat := (List.range 6).map (6 * b + ·)

def chEnabled (c : Chan) : Bool := bit c.cfg 0
def chRelay (c : Chan) : Bool := bit c.cfg 4
def chAngle (c : Chan) : Bool := bit c.cfg 5
def chFast (c : Chan) : Bool := bit c.cfg 6
def chRshunt (c : Chan) : Nat := fld c.cfg 31 22
def tpk (c : Chan) : Nat := fld c.time 8 0
def deferMax (b : Bank) : Nat := fld b.cfg 15 6

/-- Full-scale current, 0.1 / R A (bank topology). -/
def fullScale (c : Chan) : Word := F32.div (F32.rat 1 10) (F32.div (F32.ofNat (chRshunt c)) (F32.ofNat 1000))

/-- The high side is on while any channel is in PULL_IN, HOLD or a slow RELEASE. -/
def hsOn (d : Dev) (b : Nat) : Bool :=
  (bankChans b).any fun ch =>
    let c := chanOf d ch
    c.st == 2 || c.st == 3 || (c.st == 4 && !chFast c && chEnabled c && !c.failSafe)

def pullingIn (d : Dev) (b : Nat) : Option Nat := (bankChans b).find? fun ch => (chanOf d ch).st == 2

/-! ## Codes, completions -/

def coilPoint (ch k : Nat) : Nat := 0x200 + 4 * ch + k

/-- A diagnostic code, written to its point as the code + 1 (R235). -/
def setDiag (ch code : Nat) (d : Dev) : Dev :=
  if (chanOf d ch).diag = code then d
  else
    enqueueField (coilPoint ch 3) (F32.ofNat (code + 1)) qGood (fieldNow d) (srcField (coilPoint ch 3))
      (modChan ch (fun c => { c with diag := code }) d)

/-- Results of a COIL_CMD (R365): state, code, motion time. -/
def coilResults (st : Nat) (c : Chan) (r0 : Word) : Done :=
  if st = stOk ∨ st = stDeferred then okWith (wd c.st) (wd c.diag) (wd (fld c.motion 15 0)) |> fun x => { x with status := st }
  else fail st r0

/-- Setpoint in A without dither. -/
def setpoint (c : Chan) : Word :=
  if chRelay c then c.imin
  else F32.add c.imin (F32.mul (F32.div c.x F32.hundred) (F32.sub c.imax c.imin))

/-- The reply to a `coil … test`: channel, state, current used in A, x (R447, R448). -/
def coilReply (ch : Nat) (c : Chan) : Output :=
  .console true "coil" [ch, c.st, (setpoint { c with x := c.target }).toNat, c.target.toNat]

/-- Name of a status code that a coil request can end with (R346). -/
def coilError (st : Nat) : String :=
  if st = stDutyLimit then "DUTY_LIMIT" else if st = stDeferTimeout then "BANK_DEFER_TIMEOUT"
  else if st = stCancelled then "CANCELLED" else "HW_FAULT"

/-- The console answers a `coil … test` once the request is resolved, after a pull-in that succeeds. -/
def answerTest (ch st : Nat) (c : Chan) (d : Dev) : Dev :=
  if d.tow.coilWait ≠ some (ch, true) ∨ (st = stOk ∧ c.st = 2) then d
  else emit (if st = stOk then coilReply ch c else .console false (coilError st) [])
    { d with tow := { d.tow with coilWait := none } }

/-- The waiting COIL_CMDs of a channel complete (R224). -/
def resolveCmd (ch st : Nat) (r0 : Word) (d : Dev) : Dev :=
  let c := chanOf d ch
  forEach c.waiting (fun h d => completeCmd 0x0504 h (coilResults st c r0) d)
    (answerTest ch st c (setChan ch { c with waiting := [] } d))

/-! ## Duty and I²t (R231, R232) -/

/-- How long a PULL_IN in progress has run since it or the sub-window began, in ac. -/
def pulledAc (d : Dev) (c : Chan) : Nat :=
  match c.pullStart with
  | some s => (stampDiff (fieldNow d) s).toNat
  | none => 0

/-- PULL_IN time in the window, in ac: the sub-windows ended and what has run since. -/
def pullAc (d : Dev) (c : Chan) : Nat := (c.window.map Prod.fst).sum + c.partAc + pulledAc d c

/-- `ac` at the present rate with `ms` milliseconds is longer than `limit` milliseconds. -/
def longerThan (d : Dev) (ac ms limit : Nat) : Bool :=
  decide ((limit - ms) * (65536 * F32.magNum d.tb.rate) < ac * 1000 * F32.magDen d.tb.rate) || decide (limit < ms)

/-- PULL_IN or HOLD ends however it ends: the pull-in's time goes to the sub-window in progress (R231), and the duty of a
HOLD is kept for the next one (R220). -/
def leave (d : Dev) (c : Chan) : Chan :=
  { c with
    partAc := c.partAc + pulledAc d c, pullStart := none, lastDuty := if c.st = 3 then c.duty else c.lastDuty }

def i2Sum (c : Chan) : Word := F32.add (F32.sum (c.window.map Prod.snd)) c.partI2

/-- The request would pass a limit. -/
def overLimit (d : Dev) (c : Chan) : Bool :=
  let duty := fld c.limit 6 0
  let win := fld c.limit 25 16
  (decide (duty < 100 ∨ !F32.isZero c.i2t) && longerThan d (pullAc d c) (tpk c) (duty * win * 10)) ||
  (!F32.isZero c.i2t &&
    F32.gt (F32.add (i2Sum c) (F32.div (F32.mul (F32.mul c.ipk c.ipk) (F32.ofNat (tpk c))) (F32.ofNat 1000))) c.i2t)

/-! ## Pull-in (R219, R225) -/

/-- PULL_IN begins: the low side fully on; the pull-in counts (R239); a COIL_CMD completes OK. -/
def startPull (ch : Nat) (d : Dev) : Dev :=
  let c := chanOf d ch
  let d := setChan ch { c with
    st := 2, request := none, armed := false, dipSeen := false, noDetect := c.st == 4 || (c.st == 1 && c.noDetect), limited := false
    pullStart := some (fieldNow d), queued := none } d
  resolveCmd ch stOk 0#32 (wearUp (16 + ch) d)

/-- The request stamp has come: limits (R232), then the one-pull-in rule (R225, R226). In the fail-safe neither limit
nor DEFER_MAX applies (R238). -/
def requestAt (ch : Nat) (stamp : Stamp) (d : Dev) : Dev :=
  let b := ch / 6
  let c := chanOf d ch
  if !d.coil.vdrvGood then
    resolveCmd ch stHwFault (wd (unitChan ch)) (setDiag ch 11 (setChan ch { c with st := 0, armed := false } d))
  else if !c.failSafe && overLimit d c then
    resolveCmd ch stDutyLimit (wd ch) (setDiag ch 9 (setChan ch { c with st := 0, armed := false, limited := true } d))
  else if (pullingIn d b).isNone then startPull ch d
  else if !c.failSafe && deferMax (bankOf d b) = 0 then
    resolveCmd ch stDeferTimeout (wd ch) (setDiag ch 8 (setChan ch { c with st := 0, armed := false } d))
  else setChan ch { c with st := 1, armed := false, request := some stamp, noDetect := c.st == 4 } d

/-- Among deferred requests the earliest stamp starts, the lower channel first among equals; in the fail-safe the
lowest channel (R225, R238). -/
def nextDeferred (d : Dev) (b : Nat) : Option Nat :=
  (bankChans b).foldl (fun best ch =>
    let c := chanOf d ch
    if c.st ≠ 1 then best
    else match best with
      | none => some ch
      | some o =>
        match (chanOf d o).request, c.request with
        | some so, some sc => if later so sc then some ch else best
        | _, _ => best) none

def startDeferred (b : Nat) (d : Dev) : Dev :=
  if (pullingIn d b).isSome || !d.coil.vdrvGood then d
  else match nextDeferred d b with
    | some ch => startPull ch d
    | none => d

/-! ## ANGLE requests (R224) -/

/-- ARG of a RELAY_CLOSE entry: the last dip's time, or TPK when no dip has been measured since power-up. -/
def relayArg (c : Chan) : Nat := if c.dipKnown then fld c.motion 15 0 else tpk c * 100

/-- The first occurrence of an angle or its opposite whose start stamp lies at least 1,024 ac after acceptance. -/
def angleTarget (e : AngleEntry) (angle : Nat) (d : Dev) : Stamp :=
  let c := if aeAction e = 4 then operateAc e d else 0
  let after := stPlus (fieldNow d) (1024 + c - 1)
  let s1 := firstAfter (angle % 65536) after
  let s2 := firstAfter ((angle + 32768) % 65536) after
  if later s1 s2 then s2 else s1

/-- Arm the channel's entry as a one-shot. -/
def armEntry (ch : Nat) (d : Dev) : Dev :=
  let c := chanOf d ch
  match c.entry with
  | none => requestAt ch (fieldNow d) d
  | some i =>
    let act := if chRelay c then 4 else 3
    let w3 := if chRelay c then wd (relayArg c) else 0#32
    let e : AngleEntry :=
      { w0 := wd (at' 16 act), w1 := 0#32, w2 := wd ch, w3 := w3, occ := fieldNow d, start := fieldNow d, started := false }
    let t := angleTarget e (fld c.time 31 16) d
    let e := { e with w0 := wd (2147483648 + at' 16 act + t.angle.toNat), w1 := t.cycle }
    setChan ch { c with armed := true } (putEntry i (withOcc t e d) (displace i d))

def disarm (ch : Nat) (d : Dev) : Dev :=
  let c := chanOf d ch
  match c.entry with
  | none => setChan ch { c with armed := false } d
  | some i =>
    setChan ch { c with armed := false }
      { d with tb := { d.tb with entries := Tab.upd d.tb.entries i fun e => { e with w0 := setBit e.w0 31 false } } }

/-- A pull-in request (R224). -/
def pullRequest (ch : Nat) (d : Dev) : Dev := if chAngle (chanOf d ch) then armEntry ch d else requestAt ch (fieldNow d) d

/-- A deferred or armed request is withdrawn (R217, R223). -/
def withdraw (ch st : Nat) (r0 : Word) (d : Dev) : Dev :=
  let c := chanOf d ch
  let d := if c.armed then disarm ch d else d
  let d := modChan ch (fun c => { c with st := if c.st = 1 then 0 else c.st, request := none }) d
  resolveCmd ch st r0 d

/-! ## Commands (R223) -/

/-- RELEASE is entered from HOLD. -/
def enterRelease (ch : Nat) (d : Dev) : Dev := modChan ch (fun c => { leave d c with st := 4 }) d

/-- A command limited to 0–100 (R220). -/
def limitCmd (x : Word) : Word := F32.clamp x F32.zero F32.hundred

/-- The command acts by state (*Command by state*). A value that is not finite is refused (R243). -/
def coilAct (ch : Nat) (v : Word) (d : Dev) : Bool × Dev :=
  let c := chanOf d ch
  if !F32.finite v then (false, resolveCmd ch stHwFault (wd (unitChan ch)) d)
  else if !chEnabled c then (true, resolveCmd ch stOk 0#32 d)
  else
    let x := limitCmd v
    let on := F32.gt x F32.zero
    match c.st with
    | 0 | 4 =>
      if on then (true, if c.armed then setChan ch { c with target := x } d else pullRequest ch (setChan ch { c with target := x } d))
      else if c.armed then (true, withdraw ch stCancelled 0#32 (setChan ch { c with target := x } d))
      else (true, resolveCmd ch stOk 0#32 (setChan ch { c with target := x } d))
    | 1 =>
      if on then (true, setChan ch { c with target := x } d)
      else (true, withdraw ch stCancelled 0#32 (setChan ch { c with target := x } d))
    | 2 => (true, setChan ch { c with queued := some x } d)
    | 3 =>
      if on then
        let rate := rateOf d (predefBase + coilPoint ch 0)
        (true, resolveCmd ch stOk 0#32 (setChan ch { c with target := x, x := if F32.isZero rate then x else c.x } d))
      else (true, resolveCmd ch stOk 0#32 (enterRelease ch (setChan ch { c with target := x, x := x } d)))
    | _ => (!on, resolveCmd ch stHwFault (wd (unitChan ch)) d)

/-- The command reaches the channel: a queued one it overwrites is withdrawn with the COIL_CMD that carried it, and the
COIL_CMD that made it waits for the outcome. The channel has left the fail-safe. -/
def takeCommand (ch : Nat) (cmd : Option HostCmd) (d : Dev) : Dev :=
  let d := if (chanOf d ch).st = 2 then resolveCmd ch stCancelled 0#32 d else d
  let d := if d.tow.coilWait = some (ch, false) then { d with tow := { d.tow with coilWait := some (ch, true) } } else d
  modChan ch (fun c => { c with failSafe := false, waiting := c.waiting ++ cmd.toList }) d

/-- A delivery at a channel. -/
def deliverCoil (ch : Nat) (cmd : Option HostCmd) (x : Delivery) (d : Dev) : StageRes × Dev :=
  stageTake ch (fun v d => coilAct ch v (takeCommand ch cmd d)) x d

def coilWriteDelivery (ch : Nat) (d : Dev) : Dev :=
  let p := popDelivery (predefBase + coilPoint ch 0) d
  match p.1 with
  | some x => settle (deliverCoil ch none x p.2).2
  | none => d

/-! ## The current loop (R220) -/

/-- PWM frequency of a channel's bank in Hz. -/
def pwmHz (d : Dev) (ch : Nat) : Nat := fld (bankOf d (ch / 6)).cfg 5 0 * 1000

/-- Phase of the dither in 1/65536 of its period: FREQ Hz counted in PWM periods from a phase that the manual does not
state, which is free (log entry 7). -/
def ditherPhase (d : Dev) (ch : Nat) (c : Chan) : Nat :=
  ((Config.free (0x50000000 + ch)).toNat + c.periods * fld c.dither 24 16 * 65536 / max 1 (pwmHz d ch)) % 65536

/-- Triangle or square of unit amplitude by phase, in 1/16384. -/
def ditherWave (kind phase : Nat) : Int :=
  if kind = 2 then (if phase < 32768 then 16384 else -16384) else (((phase : Int) - 32768).natAbs : Int) - 16384

def dither (d : Dev) (ch : Nat) (c : Chan) : Word :=
  let kind := fld c.cfg 19 18
  let amp := F32.mul (F32.div (F32.ofNat (fld c.dither 7 0)) (F32.ofNat 1000)) c.imax
  if kind = 0 then F32.zero else F32.mul amp (F32.rat (ditherWave kind (ditherPhase d ch c)) 16384)

/-- Quantised to 12 bits of FS. -/
def quant12 (v fs : Word) : Word :=
  F32.mul (F32.div (F32.ofInt (F32.round (F32.mul (F32.div v fs) (F32.ofNat 4095)))) (F32.ofNat 4095)) fs

/-- The trigger that starts the bank's slots fires at the middle of channel 0's on-time, in 25 ns units after the period's
start; while channel 0 is not on there is none and the delay stands (R218). -/
def followOnTime (ch : Nat) (d : Dev) : Dev :=
  let b := ch / 6
  let c := chanOf d ch
  let k := 2 + b / 4
  let a := adcOf d k
  let half : Word := F32.div (F32.ofNat 20000) (F32.ofNat (max 1 (fld (bankOf d b).cfg 5 0)))
  let t := F32.round (if c.st = 2 then half else F32.mul c.duty half)
  if ch % 6 ≠ 0 || !decide (c.st = 2 ∨ c.st = 3) then d
  else setAdc k { a with pwmTrig := Tab.upd a.pwmTrig (b % 4) fun w => setFld w 15 0 t.toNat } d

/-- The loop converter's samples of a PWM period, 1 µs apart, in every state add to the I² integral (R231). -/
def addSamples (samples : List Word) (c : Chan) : Chan :=
  { c with
    partI2 := samples.foldl (fun s i => F32.add s (F32.div (F32.mul i i) (F32.ofNat 1000000))) c.partI2 }

/-- One PWM period: the hold loop takes the sample at the middle of the on-time (R220). -/
def coilPwmPeriod (ch : Nat) (imeas : Word) (samples : List Word) (d : Dev) : Dev :=
  let c := chanOf d ch
  let c := addSamples samples { c with measured := imeas, periods := (c.periods + 1) % max 1 (pwmHz d ch) }
  if c.st ≠ 3 then followOnTime ch (setChan ch c d)
  else
    let fs := fullScale c
    let iset := quant12 (F32.clamp (F32.add (setpoint c) (dither d ch c)) F32.zero fs) fs
    let e := F32.div (F32.sub iset imeas) fs
    let ki := F32.div (F32.ofNat (fld c.loop 7 0)) (F32.ofNat 65536)
    let kp := F32.div (F32.ofNat (fld c.loop 15 8)) (F32.ofNat 64)
    let g := F32.clamp (F32.add c.integ (F32.mul ki e)) F32.zero F32.one
    let du := F32.clamp (F32.add (F32.mul kp e) g) F32.zero (F32.rat 98 100)
    followOnTime ch (setChan ch { c with integ := g, duty := du } d)

/-! ## End of PULL_IN, motion, RELEASE (R219, R221, R227–R229) -/

/-- No dip came: code NO_MOTION, the motion point FAULT with its value kept, the on-state diagnostic as self-test. -/
def noMotion (ch : Nat) (d : Dev) : Dev :=
  dispatchTest (unitChan ch) { blankTest with byError := true }
    (enqueueQuality (coilPoint ch 2) qFault (srcField (coilPoint ch 2)) (setDiag ch 7 d))

/-- HOLD entry: the latest command, the carried integrator; codes 8–11 return to NONE, and the bank's code with them. A
command of 0 holds for no time and releases. -/
def enterHold (ch : Nat) (d : Dev) : Dev :=
  let c := chanOf d ch
  let x := c.queued.getD c.target
  let d := setChan ch { leave d c with
    st := 3, x := x, target := x, queued := none, integ := c.lastDuty, duty := c.lastDuty } d
  let d := if 8 ≤ c.diag then setDiag ch 0 d else d
  let b := bankOf d (ch / 6)
  let d := if b.diag = 10 ∨ b.diag = 11 then setBank (ch / 6) { b with diag := 0 } d else d
  let d := if bit c.cfg 16 && !c.dipSeen && !c.noDetect then noMotion ch d else d
  let d := resolveCmd ch stOk 0#32 d
  if F32.isZero x && !c.failSafe then enterRelease ch d else d

def pullInEnd (ch : Nat) (why : PullEnd) (d : Dev) : Dev :=
  let c := chanOf d ch
  let good := match why with
    | .motion => bit c.cfg 17 && c.dipSeen
    | _ => true
  if decide (c.st = 2) && good then settle (startDeferred (ch / 6) (enterHold ch d)) else d

/-- The dip detector's memory: samples seen, the last eight of them, the running maximum of their sum, the lowest sum since
the fall with its sample, and the sample of the dip. -/
structure Dip where
  seen : Nat := 0
  last : List Nat := []
  top : Nat := 0
  low : Option (Nat × Nat) := none
  found : Option Nat := none
  deriving DecidableEq, Repr

/-- One sample of the loop converter, a 12-bit code of full scale (R227): from `blank` µs on a fall of 2 % of FS below the
running maximum of the mean of eight, then a rise of 1 % above the lowest since. -/
def dipSample (blank : Nat) (x : Dip) (code : Nat) : Dip :=
  let l := capList 8 (x.last ++ [code])
  let n := x.seen
  let f := l.sum
  let x := { x with seen := n + 1, last := l }
  if x.found.isSome ∨ l.length < 8 ∨ n < blank then x
  else match x.low with
    | none =>
      let top := max x.top f
      { x with top := top, low := if 2 * 8 * 4095 ≤ 100 * (top - f) then some (f, n) else none }
    | some (v, k) =>
      if f < v then { x with low := some (f, n) }
      else if 8 * 4095 ≤ 100 * (f - v) then { x with found := some k }
      else x

/-- Microseconds from the pull-in's start to the lowest sample of the dip, where the samples since that start show one. -/
def dipTime (blank : Nat) (codes : List Nat) : Option Nat := (codes.foldl (dipSample blank) {}).found

/-- When a PULL_IN of `t` µs began to when it stands. -/
def pullStamp (ch t : Nat) (d : Dev) : Stamp :=
  stPlus ((chanOf d ch).pullStart.getD (fieldNow d)) (acFieldUs d t)

/-- The detector has run over the loop converter's samples since the pull-in began, 1 µs apart (R227, R228). -/
def motionDip (ch : Nat) (codes : List Nat) (d : Dev) : Dev :=
  let c := chanOf d ch
  match (if c.st = 2 ∧ bit c.cfg 16 ∧ !c.noDetect ∧ !c.dipSeen then dipTime (1000 * fld c.cfg 15 8) codes else none) with
  | none => d
  | some t =>
    let s := pullStamp ch t d
    let d := setChan ch { c with
      motion := wd (at' 16 s.angle.toNat + min 65535 (nearest t 10)), dipKnown := true, dipSeen := true } d
    let d := enqueueField (coilPoint ch 2) (F32.rat t 1000) qGood s (srcField (coilPoint ch 2)) d
    if c.diag = 7 then setDiag ch 0 d else d

def releaseEnd (ch : Nat) (d : Dev) : Dev :=
  modChan ch (fun c => if c.st = 4 then { c with st := 0 } else if c.st = 1 then { c with noDetect := false } else c) d

def deferTimeout (ch : Nat) (d : Dev) : Dev :=
  let c := chanOf d ch
  if c.st = 1 ∧ !c.failSafe then
    resolveCmd ch stDeferTimeout (wd ch) (setDiag ch 8 (setChan ch { c with st := 0, request := none } d))
  else d

/-- A sub-window ends with the sums of its time; the oldest of sixteen leaves whole (R231). -/
def dutySubwindowEnd (ch : Nat) (d : Dev) : Dev :=
  modChan ch (fun c => { c with
    window := capList 16 (c.window ++ [(c.partAc + pulledAc d c, c.partI2)]), partAc := 0, partI2 := F32.zero
    pullStart := if c.st = 2 then some (fieldNow d) else none }) d

/-! ## Faults (R233–R236) -/

/-- A channel is latched in FAULT: the low side off, requests gone, a waiting COIL_CMD HW_FAULT. -/
def latchFault (ch code : Nat) (d : Dev) : Dev :=
  let c := chanOf d ch
  let d := if c.armed then disarm ch d else d
  let d := setDiag ch code (modChan ch (fun c => { leave d c with st := 5, request := none, queued := none }) d)
  let d := resolveCmd ch stHwFault (wd (unitChan ch)) d
  if c.st = 2 then startDeferred (ch / 6) d else d

def shortSupOn (ch : Nat) (d : Dev) : Dev :=
  if (chanOf d ch).st = 5 then d else latchFault ch 4 d

def onFault (ch code : Nat) (d : Dev) : Dev :=
  let s := (chanOf d ch).st
  if s = 2 ∨ s = 3 then latchFault ch code d else d

/-- Off with a code that does not latch (BANK_OC, BANK_SUPPLY). -/
def dropChan (code ch : Nat) (d : Dev) : Dev :=
  let d := setDiag ch code (modChan ch (fun c => { leave d c with st := 0, queued := none }) d)
  resolveCmd ch stHwFault (wd (unitChan ch)) d

def energised (s : Nat) : Bool := s == 2 || s == 3 || s == 4

def setBankDiag (b code : Nat) (d : Dev) : Dev := setBank b { bankOf d b with diag := code } d

def bankOc (b : Nat) (d : Dev) : Dev :=
  forEach (bankChans b) (fun ch d =>
    let c := chanOf d ch
    if c.st = 1 ∨ c.armed then
      let d := if c.armed then disarm ch d else d
      dropChan 10 ch (modChan ch (fun c => { c with request := none }) d)
    else if energised c.st then dropChan 10 ch d else d) (setBankDiag b 10 d)

def bankSupply (b : Nat) (d : Dev) : Dev :=
  startDeferred b (forEach (bankChans b) (fun ch d =>
    if energised (chanOf d ch).st then dropChan 11 ch d else d) (setBankDiag b 11 d))

/-- Off-state diagnosis of one channel from its node and the bank node (mV): the code, none where the readings lie
between the levels. -/
def offCode (node bank : Nat) : Option Nat :=
  if 5000 < node then some 3
  else if 2000 ≤ node ∧ 2000 ≤ bank then some 0
  else if node ≤ 500 ∧ 2000 ≤ bank then some 1
  else if node ≤ 500 ∧ bank ≤ 500 then some 2
  else none

/-- Every node stays low: the short is on the bank node, and every channel takes SHORT_GND (R233). A channel that is not
enabled stays OFF (R217). -/
def bankShort (b : Nat) (d : Dev) : Dev :=
  forEach (bankChans b) (fun ch d => if chEnabled (chanOf d ch) then latchFault ch 2 d else d) (setBankDiag b 12 d)

/-- The once-per-second test of a bank whose channels are all OFF or FAULT; it reads its nodes as urgent requests. -/
def offStateTest (b bankMv : Nat) (nodes : List Nat) (stay : List Bool) (d : Dev) : Dev :=
  if (bankChans b).any (fun ch => let s := (chanOf d ch).st; s != 0 && s != 5) then d
  else
    let d := forRange 7 (fun _ d => (requestUrgent (2 + b / 4) (.coilDiag (6 * b)) d).getD d) d
    let every := (List.range 6).all fun n => stay.getD n false
    let someLow := (List.range 6).any fun n => offCode (nodes.getD n 0) bankMv == some 2
    if someLow && every then bankShort b d
    else
    let d := if (bankOf d b).diag = 12 then setBankDiag b 0 d else d
    forRange 6 (fun n d =>
      let ch := 6 * b + n
      let c := chanOf d ch
      if !chEnabled c ∨ c.st ≠ 0 then d
      else match offCode (nodes.getD n 0) bankMv with
        | some 0 => setChan ch { c with suspect := false } d
        | some 2 => if stay.getD n false then latchFault ch 2 d else d
        | some k => latchFault ch k d
        | none => d) d

/-- The verdict of a diagnostic cycle: the fault found, if any; the node check marks SUSPECT instead. -/
def diagVerdict (d : Dev) (ch : Nat) (r : DiagReading) : Option Nat × Bool :=
  let c := chanOf d ch
  if c.st = 2 ∨ c.st = 3 then
    (if r.overFs then some 4 else if r.bypass then some 5 else if r.noCurrent then some 6 else none, false)
  else if (c.st = 0 ∨ c.st = 5) ∧ !hsOn d (ch / 6) then
    (match offCode r.chanMv r.bankMv with
      | some 0 => none
      | some 2 => if r.stayLow || r.allLow then some 2 else none
      | x => x, false)
  else (none, decide (r.chanMv < 2000))

def diagDone (c : Chan) (r : DiagReading) : Done := okWith (wd c.diag) (wd r.chanMv) (wd r.bankMv)

/-- A diagnostic cycle's verdict at its channel (R236). -/
def diagnosticCycle (ch : Nat) (r : DiagReading) (d : Dev) : Dev :=
  let v := diagVerdict d ch r
  let c := chanOf d ch
  let d := match v.1 with
    | some k => if k = 2 ∧ r.allLow then bankShort (ch / 6) d else latchFault ch k d
    | none =>
      if c.st = 5 ∧ !v.2 then setDiag ch 0 (setChan ch { c with st := 0, suspect := false } d)
      else setChan ch { c with suspect := v.2 } d
  let hs := d.coil.diagWait.filter fun p => p.1 == ch
  let d := { d with coil := { d.coil with diagWait := d.coil.diagWait.filter fun p => p.1 != ch } }
  let d := forEach hs (fun p d => completeCmd 0x0505 p.2 (diagDone (chanOf d ch) r) d) d
  let d := if d.tow.diagCh = some ch then
      emit (.console true "coil" [ch, (chanOf d ch).st, (chanOf d ch).diag, r.chanMv, r.bankMv])
        { d with tow := { d.tow with diagCh := none } }
    else d
  settle d

def vdrvUndervoltage (d : Dev) : Dev :=
  let d := { d with coil := { d.coil with vdrvGood := false }, power := { d.power with vdrvGood := false } }
  forRange 8 (fun b d =>
    let hit := (bankChans b).any fun ch => energised (chanOf d ch).st
    let d := if hit then setBankDiag b 11 d else d
    forEach (bankChans b) (fun ch d => if energised (chanOf d ch).st then dropChan 11 ch d else d) d) d

def vdrvRecovered (d : Dev) : Dev :=
  let d := { d with coil := { d.coil with vdrvGood := true }, power := { d.power with vdrvGood := true } }
  forRange 8 startDeferred d

/-! ## Fail-safe (R9, R238, R431) -/

/-- The fail-safe of one channel: an energise-in-fail-safe relay holds at IMIN, pulling in if it must; every other
channel releases fast; requests are withdrawn. -/
def failSafeChan (ch : Nat) (d : Dev) : Dev :=
  let d := withdraw ch stCancelled 0#32 d
  let c := chanOf d ch
  if chRelay c && bit c.cfg 20 && chEnabled c && decide (c.st ≠ 5) then
    let c := { c with failSafe := true, x := F32.hundred, target := F32.hundred, queued := none }
    if c.st = 2 ∨ c.st = 3 then setChan ch c d else requestAt ch (fieldNow d) (setChan ch c d)
  else
    let c := { c with failSafe := true, target := F32.zero, x := F32.zero, queued := none }
    if c.st = 2 ∨ c.st = 3 then startDeferred (ch / 6) (setChan ch { leave d c with st := 4, queued := none } d)
    else setChan ch c d

/-- Without its supply every channel is off (R431). -/
def killChan (ch : Nat) (d : Dev) : Dev :=
  let d := withdraw ch stCancelled 0#32 d
  modChan ch (fun c => { leave d c with st := if c.st = 5 then 5 else 0, queued := none }) d

/-! ## Commands -/

def execCoilWriteDelivery (ch : Fin 48) (s : State) := run (coilWriteDelivery ch.val) s
def execCoilPwmPeriod (ch : Fin 48) (imeas : Word) (samples : List Word) (s : State) :=
  run (coilPwmPeriod ch.val imeas samples) s
def execPullInEnd (ch : Fin 48) (why : PullEnd) (s : State) := run (pullInEnd ch.val why) s
def execReleaseEnd (ch : Fin 48) (s : State) := run (releaseEnd ch.val) s
def execDeferTimeout (ch : Fin 48) (s : State) := run (deferTimeout ch.val) s
def execDutySubwindowEnd (ch : Fin 48) (s : State) := run (dutySubwindowEnd ch.val) s
def execOffStateTest (bank : Fin 8) (bankMv : Nat) (nodesMv : List Nat) (stayLow : List Bool) (s : State) :=
  run (offStateTest bank.val bankMv nodesMv stayLow) s
def execShortSupOn (ch : Fin 48) (s : State) := run (shortSupOn ch.val) s
def execShortGndOn (ch : Fin 48) (s : State) := run (onFault ch.val 5) s
def execOpenOn (ch : Fin 48) (s : State) := run (onFault ch.val 6) s
def execBankOc (bank : Fin 8) (s : State) := run (bankOc bank.val) s
def execBankSupply (bank : Fin 8) (s : State) := run (bankSupply bank.val) s
def execVdrvUndervoltage (s : State) := run vdrvUndervoltage s
def execVdrvRecovered (s : State) := run vdrvRecovered s

end Sys2Proof.Machine
end

