-- ==== Sys2Proof/Machine/Out.lean ====
section
/-! DEFINITION. Out: analogue outputs, gate outputs, fans and sensor buses (R243–R254), and the rate-limit update of
every local stage (R384). -/
namespace Sys2Proof.Machine

def aoOf (d : Dev) (n : Nat) : Ao := Tab.get {} d.out.aos n
def setAo (n : Nat) (x : Ao) (d : Dev) : Dev := { d with out := { d.out with aos := Tab.set {} d.out.aos n x } }
def tgOf (d : Dev) (n : Nat) : Tg := Tab.get {} d.out.tgs n
def setTg (n : Nat) (x : Tg) (d : Dev) : Dev := { d with out := { d.out with tgs := Tab.set {} d.out.tgs n x } }
def fanOf (d : Dev) (n : Nat) : Fan := Tab.get {} d.out.fans n
def setFan (n : Nat) (x : Fan) (d : Dev) : Dev := { d with out := { d.out with fans := Tab.set {} d.out.fans n x } }
def busOf (d : Dev) (k : Nat) : Bus := Tab.get {} d.out.buses k
def setBus (k : Nat) (x : Bus) (d : Dev) : Dev := { d with out := { d.out with buses := Tab.set {} d.out.buses k x } }

def aoId (n : Nat) : Nat := predefBase + 0x100 + n
def tgId (n : Nat) : Nat := predefBase + 0x300 + n
def fanId (n : Nat) : Nat := predefBase + 0x340 + 2 * n

/-! ## Analogue outputs (R243, R244) -/

/-- Code of a voltage: round(V·4,095 / 10). -/
def aoCode (v : Word) : Nat := (F32.round (F32.div (F32.mul v (F32.ofNat 4095)) (F32.ofNat 10))).toNat

/-- The value limited to the span. -/
def aoSpan (x : Ao) (v : Word) : Word := F32.clamp v (if bit x.cfg 1 then F32.ofNat 2 else F32.zero) (F32.ofNat 10)

def aoAct (n : Nat) (v : Word) (d : Dev) : Bool × Dev :=
  let x := aoOf d n
  if !F32.finite v then (false, d)
  else if !bit x.cfg 0 then (true, d)
  else
    let l := aoSpan x v
    let x := { x with target := l, limited := x.limited || F32.ne l v }
    if F32.isZero (rateOf d (aoId n)) then (true, setAo n { x with applied := l, code := aoCode l } d)
    else (true, setAo n x d)

def deliverAo (n : Nat) (x : Delivery) (d : Dev) : StageRes × Dev := stageTake (48 + n) (aoAct n) x d

def aoShort (n : Nat) (d : Dev) : Dev := setAo n { aoOf d n with short := true } d

/-- Fail-safe of an AO: its FAIL code while enabled, 0 V otherwise. -/
def failSafeAo (n : Nat) (d : Dev) : Dev :=
  let x := aoOf d n
  let c := if bit x.cfg 0 then fld x.cfg 27 16 else 0
  let v := F32.rat (c * 10) 4095
  setAo n { x with code := c, applied := v, target := v } d

def killAo (n : Nat) (d : Dev) : Dev := setAo n { aoOf d n with code := 0, applied := 0#32, target := 0#32 } d

/-! ## Gate outputs (R245–R248) -/

def tgMin (x : Tg) : Nat := fld x.ref 31 16
def tgZc (x : Tg) : Nat := fld x.ref 15 0

def tgAct (n : Nat) (v : Word) (d : Dev) : Bool × Dev :=
  let x := tgOf d n
  if !F32.finite v then (false, d)
  else if !bit x.cfg 0 then (true, d)
  else (true, setTg n { x with held := some v } d)

def deliverTg (n : Nat) (x : Delivery) (d : Dev) : StageRes × Dev := stageTake (64 + n) (tgAct n) x d

/-- The entry fires nothing. -/
def tgQuiet (n : Nat) (d : Dev) : Dev :=
  let x := tgOf d n
  let d := setTg n { x with angle := 32768 } d
  match x.entry with
  | some i => { d with tb := { d.tb with entries := Tab.upd d.tb.entries i fun e => { e with w0 := setBit e.w0 31 false } } }
  | none => d

/-- The entry rewritten at a crossing: TARGET is ZC_REF + a, and its first occurrence lies `a` after this crossing, the
rising one or the other (R245, R246). -/
def tgRewrite (n a : Nat) (rising : Bool) (d : Dev) : Dev :=
  let x := tgOf d n
  let occ := stPlus (fieldNow d) a
  let first := if rising then occ else stMinus occ 32768
  let d := setTg n { x with angle := a } d
  match x.entry with
  | some i =>
    putEntry i
      { w0 := wd (2147483648 + at' 20 1 + at' 16 2 + (tgZc x + a) % 65536), w1 := first.cycle, w2 := wd n, w3 := 0#32
        occ := occ, start := occ, started := false } (displace i d)
  | none => d

/-- Length of a pulse that begins at an angle, in ac: WIDTH, or to the next zero crossing (R245). -/
def tgPulse (n angle : Nat) (d : Dev) : Nat :=
  let x := tgOf d n
  min (acFieldUs d (fld x.cfg 31 23)) (32768 - (angle + 65536 - tgZc x) % 32768)

/-- LOCK_REQ holds back a gate output while the timebase is not LOCKED (R248). -/
def tgNoLock (d : Dev) (n : Nat) : Bool := bit (tgOf d n).cfg 2 && decide (d.tb.st ≠ .locked)

/-- It fires nothing, shows NOLOCK, and its accumulator restarts at 0 (R248). -/
def tgUnlock (n : Nat) (d : Dev) : Dev :=
  tgQuiet n (setTg n { tgOf d n with nolock := true, acc := 0#32, firing := false } d)

/-- LOCKED has ended (R248). -/
def tgLockLost (d : Dev) : Dev :=
  forRange 16 (fun n d => if bit (tgOf d n).cfg 0 && tgNoLock d n then tgUnlock n d else d) d

/-- Firing delay in ac of a value in phase mode; none fires nothing (R245). -/
def tgDelay (x : Tg) (v : Word) : Option Nat :=
  if F32.ge v (F32.ofNat 32768) then none
  else if F32.lt v (F32.ofNat (tgMin x)) then some (tgMin x)
  else
    let a := (F32.round v).toNat
    if 32768 ≤ a then none else some a

/-- Power fraction in zero-cross mode (R247). -/
def tgFraction (v : Word) : Word :=
  F32.div (F32.sub (F32.ofNat 32768) (F32.min v (F32.ofNat 32768))) (F32.ofNat 32768)

/-- Half a cycle in µs at the present rate. -/
def halfCycleUs (d : Dev) : Nat := 500000 * F32.magDen d.tb.rate / F32.magNum d.tb.rate

/-- The value delivered last comes into force, within its rate (R246, R384). -/
def tgTakeHeld (n : Nat) (d : Dev) : Dev :=
  let x := tgOf d n
  let t := x.held.getD x.target
  setTg n { x with held := none, target := t, value := slewTo x.value t (rateOf d (tgId n)) (halfCycleUs d) } d

def tgZeroCrossing (n : Nat) (rising : Bool) (d : Dev) : Dev :=
  let x := tgOf d n
  if !bit x.cfg 0 ∨ 2 ≤ stageState d (64 + n) then tgQuiet n d
  else
    let d := if stageState d (64 + n) = 0 then tgTakeHeld n d else d
    let x := tgOf d n
    if tgNoLock d n then tgUnlock n d
    else
      let x := { x with nolock := false }
      if bit x.cfg 1 then
        let acc := if rising then F32.add x.acc (tgFraction x.value) else x.acc
        let fire := if rising then F32.ge acc F32.one else x.firing
        let acc := if rising && fire then F32.sub acc F32.one else acc
        let d := setTg n { x with acc := acc, firing := fire } d
        if fire then tgRewrite n (tgMin x) rising d else tgQuiet n d
      else
        let d := setTg n x d
        match tgDelay x x.value with
        | some a => tgRewrite n a rising d
        | none => tgQuiet n d

def tgWriteDelivery (n : Nat) (d : Dev) : Dev :=
  let p := popDelivery (tgId n) d
  match p.1 with
  | some x => settle (deliverTg n x p.2).2
  | none => d

def failSafeTg (n : Nat) (d : Dev) : Dev := tgQuiet n (setTg n { tgOf d n with held := none, firing := false } d)

/-! ## Fans (R249, R250) -/

/-- What the ball of FANn's PWM carries: the duty, inverted where INVERT is set; FAN7's leaves on the TG15 ball, while
ALT_FAN7 = 1 alone (R242, R249). -/
def fanBall (d : Dev) (n : Nat) : Option Nat :=
  let x := fanOf d n
  if n = 7 && !bit (tgOf d 15).cfg 3 then none else some (if bit x.cfg 2 then 1000 - x.duty else x.duty)

def driveFan (n : Nat) (d : Dev) : Dev :=
  match fanBall d n with
  | some v => emit (.fanPwm n v) d
  | none => d

def fanDuty (v : Word) : Nat := (F32.round (F32.mul v (F32.ofNat 10))).toNat

/-- The command as applied: 0 stays 0, above 0 at least MIN, at most 100. -/
def fanTarget (x : Fan) (v : Word) : Word :=
  let v := F32.clamp v F32.zero F32.hundred
  if F32.isZero v then F32.zero else F32.max v (F32.ofNat (fld x.cfg 23 16))

def fanAct (n : Nat) (v : Word) (d : Dev) : Bool × Dev :=
  let x := fanOf d n
  if !F32.finite v then (false, d)
  else if !bit x.cfg 0 then (true, d)
  else
    let t := fanTarget x v
    if F32.isZero (rateOf d (fanId n)) then (true, driveFan n (setFan n { x with target := t, applied := t, duty := fanDuty t } d))
    else (true, setFan n { x with target := t } d)

def deliverFan (n : Nat) (x : Delivery) (d : Dev) : StageRes × Dev := stageTake (80 + n) (fanAct n) x d

def failSafeFan (n : Nat) (d : Dev) : Dev :=
  let x := fanOf d n
  let v := if bit x.cfg 0 then F32.ofNat (fld x.cfg 31 24) else F32.zero
  driveFan n (setFan n { x with applied := v, target := v, duty := fanDuty v } d)

def killFan (n : Nat) (d : Dev) : Dev :=
  driveFan n (setFan n { fanOf d n with applied := 0#32, target := 0#32, duty := 0 } d)

def fanSpeedOff (n : Nat) : Nat := 0x341 + 2 * n

def tachEdge (n us : Nat) (d : Dev) : Dev :=
  let x := fanOf d n
  if bit x.cfg 1 && decide (200 < us) then
    setFan n { x with edges := capList 4 (x.edges ++ [us]), stall := false } d
  else d

/-- The speed point is written FAULT by the fabric ticks from the next on (R250). -/
def fanStall (n : Nat) (d : Dev) : Dev :=
  let x := fanOf d n
  if bit x.cfg 1 && decide (x.duty ≠ 0) then setFan n { x with stall := true, rpm := 0, edges := [] } d else d

/-- rpm = 30 / T, with T the mean of the last four edge intervals in seconds. -/
def fanRpm (edges : List Nat) : Word := F32.rat (30 * 1000000 * edges.length) edges.sum

def fanTick (n : Nat) (d : Dev) : Dev :=
  let x := fanOf d n
  let off := fanSpeedOff n
  if !bit x.cfg 1 then d
  else if x.duty = 0 then enqueueField off F32.zero qGood (fieldNow d) (srcField off) (setFan n { x with rpm := 0 } d)
  else if x.stall then enqueueField off F32.zero qFault (fieldNow d) (srcField off) d
  else if x.edges.isEmpty then d
  else
    let v := fanRpm x.edges
    enqueueField off v qGood (fieldNow d) (srcField off) (setFan n { x with rpm := min 65535 (F32.round v).toNat } d)

/-! ## Deliveries and rate limits -/

def aoWriteDelivery (n : Nat) (d : Dev) : Dev :=
  let p := popDelivery (aoId n) d
  match p.1 with
  | some x => settle (deliverAo n x p.2).2
  | none => d

def fanWriteDelivery (n : Nat) (d : Dev) : Dev :=
  let p := popDelivery (fanId n) d
  match p.1 with
  | some x => settle (deliverFan n x p.2).2
  | none => d

/-- The update of R384 on a stage that is NORMAL; a TG moves at its crossings. -/
def slewUpdate (o : OutRef) (us : Nat) (d : Dev) : Dev :=
  match o with
  | .ao n =>
    let x := aoOf d n.val
    if stageState d (48 + n.val) ≠ 0 ∨ !bit x.cfg 0 then d
    else
      let v := slewTo x.applied x.target (rateOf d (aoId n.val)) us
      setAo n.val { x with applied := v, code := aoCode v } d
  | .coil ch =>
    let c := chanOf d ch.val
    if stageState d ch.val ≠ 0 ∨ c.st ≠ 3 then d
    else setChan ch.val { c with x := slewTo c.x c.target (rateOf d (predefBase + coilPoint ch.val 0)) us } d
  | .tg n =>
    let x := tgOf d n.val
    if stageState d (64 + n.val) ≠ 0 ∨ !bit x.cfg 0 then d
    else setTg n.val { x with value := slewTo x.value x.target (rateOf d (tgId n.val)) us } d
  | .fan n =>
    let x := fanOf d n.val
    if stageState d (80 + n.val) ≠ 0 ∨ !bit x.cfg 0 then d
    else
      let v := slewTo x.applied x.target (rateOf d (fanId n.val)) us
      driveFan n.val (setFan n.val { x with applied := v, duty := fanDuty v } d)

/-! ## Sensor buses (R251–R253) -/

def sbWord (b : Bus) (s i : Nat) : Word := (Tab.get [] b.templates s).getD i 0#32
def sbEn (b : Bus) (s : Nat) : Bool := bit (sbWord b s 0) 31
def sbSource (k s : Nat) : Word := srcField (0x8000 + 16 * k + s)
def sbFailN (b : Bus) (s : Nat) : Nat := let n := fld (sbWord b s 0) 7 0; if n = 0 then 3 else n

/-- Every group of two bytes is followed by its CRC-8. -/
def sbCrcOk (bs : List Byte) : Bool :=
  (List.range (bs.length / 3)).all fun i => crc8 [bs.getD (3 * i) 0, bs.getD (3 * i + 1) 0] == byteAt bs (3 * i + 2)

/-- Points of a template's fields in use. -/
def sbPoints (b : Bus) (s : Nat) : List (Nat × Nat) :=
  ((List.range 2).filter fun f => bit (sbWord b s (4 + 4 * f)) 31).map fun f => (f, fld (sbWord b s (5 + 4 * f)) 22 0)

/-- raw·GAIN + OFFSET of one field (R253). -/
def sbValue (b : Bus) (s f : Nat) (bs : List Byte) : Word :=
  let w := sbWord b s (4 + 4 * f)
  let i := fld w 26 24
  let n := if fld w 3 0 = 0 then 16 else fld w 3 0
  let raw := (byteAt bs i * 256 + byteAt bs (i + 1)) / 2 ^ fld w 20 16 % 2 ^ n
  let v : Int := if bit w 4 then sgn n raw else raw
  F32.add (F32.mul (F32.ofInt v) (sbWord b s (6 + 4 * f))) (sbWord b s (7 + 4 * f))

def sbWrite (k s : Nat) (bs : List Byte) (stamp : Stamp) (d : Dev) : Dev :=
  let b := busOf d k
  forEach (sbPoints b s) (fun p d =>
    let v := sbValue b s p.1 bs
    enqueueDie { id := p.2, act := .write v qGood (some (pointCheck p.2 v qGood 1)) 0, stamp := stamp,
                 source := sbSource k s, writer := .field } d) d

/-- A poll fails: counted, retried once, and after FAIL_N in a row both points FAULT (R253). -/
def sbFail (k s : Nat) (d : Dev) : Dev :=
  let b := busOf d k
  let n := Tab.get 0 b.failRun s + 1
  let r := Tab.get 0 b.retry s
  let d := setBus k { b with
    fails := up16 b.fails, failRun := Tab.put b.failRun s n, phase := Tab.del b.phase s
    retry := if r = 2 then Tab.del b.retry s else Tab.put b.retry s 1 } d
  if n = sbFailN b s then
    forEach (sbPoints b s) (fun p d =>
      enqueueDie { id := p.2, act := .quality qFault, stamp := fieldNow d, source := sbSource k s, writer := .field } d) d
  else d

/-- START on the bus: an SDA line found low gets nine pulses and a STOP, sets STUCK, and the poll fails. -/
def sbStart (k s : Nat) (sdaLow : Bool) (go : Dev → Dev) (d : Dev) : Dev :=
  if sdaLow then sbFail k s (emit (.busClear k) (setBus k { busOf d k with stuck := true } d)) else go d

def sbRead (k s : Nat) (d : Dev) : Dev :=
  let b := busOf d k
  emit (.busRead k (fld (sbWord b s 0) 30 24) (fld (sbWord b s 2) 31 24)) (setBus k { b with phase := Tab.put b.phase s 2 } d)

/-- Trigger bytes, first in [23:16]. -/
def sbTrigger (b : Bus) (s : Nat) : List Byte :=
  ([23, 15, 7].take (fld (sbWord b s 1) 31 24)).map fun h => BitVec.ofNat 8 (fld (sbWord b s 1) h (h - 7))

def sbBegin (k s : Nat) (sdaLow : Bool) (d : Dev) : Dev :=
  let b := busOf d k
  let d := setBus k { b with sensor := s } d
  sbStart k s sdaLow (fun d =>
    if fld (sbWord b s 1) 31 24 = 0 then sbRead k s d
    else
      let b := busOf d k
      emit (.busWrite k (BitVec.ofNat 8 (2 * fld (sbWord b s 0) 30 24) :: sbTrigger b s))
        (setBus k { b with phase := Tab.put b.phase s 1 } d)) d

/-- A read occupies the bus; a WAIT leaves it free (R252). -/
def busBusy (b : Bus) : Bool := b.phase.any fun p => p.2 == 2

/-- What waits takes its turn: a read after its trigger, a due poll, a retry. -/
def sbTurn (k s what : Nat) (sdaLow : Bool) (d : Dev) : Dev :=
  let b := busOf d k
  match what with
  | 1 => if Tab.get 0 b.phase s = 1 then sbStart k s sdaLow (sbRead k s) d else d
  | 2 => sbBegin k s sdaLow (setBus k { b with retry := Tab.put b.retry s 2 } d)
  | _ => sbBegin k s sdaLow (setBus k { b with retry := Tab.del b.retry s } d)

/-- A free bus serves the waiting sensors, lowest index first; SDA is high there, for the bus has just ended with STOP. A
sensor's next poll waits for the end of the one in progress. -/
def sbServe (k : Nat) : Nat → Dev → Dev
  | 0, d => d
  | n + 1, d =>
    let b := busOf d k
    if busBusy b then d
    else match b.wait.find? fun p => p.2 == 1 || Tab.get 0 b.phase p.1 == 0 with
      | none => d
      | some p => sbServe k n (sbTurn k p.1 p.2 false (setBus k { b with wait := Tab.del b.wait p.1 } d))

/-- A sensor asks for the bus: at once where it is free, else in its turn (R252). -/
def sbAsk (k s what : Nat) (sdaLow : Bool) (d : Dev) : Dev :=
  let b := busOf d k
  if busBusy b || (what != 1 && Tab.get 0 b.phase s != 0) then setBus k { b with wait := Tab.put b.wait s what } d
  else sbServe k 32 (sbTurn k s what sdaLow d)

/-- A poll comes due. One that finds the sensor's last one still waiting starts more than one PERIOD late. -/
def sensorPollDue (k s : Nat) (late sdaLow : Bool) (d : Dev) : Dev :=
  let b := busOf d k
  if !bit b.cfg 0 || !sbEn b s then d
  else
    let again := Tab.find b.wait s == some 0
    let d := if late || again then setBus k { b with late := satAdd 1023 b.late 1 } d else d
    if again then d else sbAsk k s 0 sdaLow d

def triggerWaitEnd (k s : Nat) (sdaLow : Bool) (d : Dev) : Dev :=
  if Tab.get 0 (busOf d k).phase s = 1 then sbAsk k s 1 sdaLow d else d

/-- A transaction ends: a trigger write that met a NACK, or a read. -/
def sensorPollReadEnd (k s : Nat) (bytes : Option (List Byte)) (stamp : Stamp) (d : Dev) : Dev :=
  let b := busOf d k
  match Tab.get 0 b.phase s, bytes with
  | 0, _ => d
  | 1, some _ => d
  | _, none => sbServe k 32 (sbFail k s d)
  | _, some bs =>
    if bs.length ≠ fld (sbWord b s 2) 31 24 || (fld (sbWord b s 2) 23 16 == 1 && !sbCrcOk bs) then
      sbServe k 32 (sbFail k s d)
    else
      sbServe k 32 (sbWrite k s bs stamp (setBus k { b with
        phase := Tab.del b.phase s, failRun := Tab.del b.failRun s, retry := Tab.del b.retry s } d))

def pollRetry (k s : Nat) (sdaLow : Bool) (d : Dev) : Dev :=
  let b := busOf d k
  if Tab.get 0 b.retry s = 1 && bit b.cfg 0 && sbEn b s then sbAsk k s 2 sdaLow d else d

def clockStretchTimeout (k s : Nat) (d : Dev) : Dev :=
  if Tab.get 0 (busOf d k).phase s = 0 then d else sbServe k 32 (sbFail k s d)

/-! ## Commands -/

def execAoWriteDelivery (n : Fin 16) (s : State) := run (aoWriteDelivery n.val) s
def execAoShort (n : Fin 16) (s : State) := run (aoShort n.val) s
def execTgWriteDelivery (n : Fin 16) (s : State) := run (tgWriteDelivery n.val) s
def execFanWriteDelivery (n : Fin 8) (s : State) := run (fanWriteDelivery n.val) s
def execTachEdge (n : Fin 8) (dtUs : Nat) (s : State) := run (tachEdge n.val dtUs) s
def execFanStall (n : Fin 8) (s : State) := run (fanStall n.val) s
def execSensorPollDue (bus : Fin 4) (sensor : Fin 16) (late sdaLow : Bool) (s : State) :=
  run (sensorPollDue bus.val sensor.val late sdaLow) s
def execTriggerWaitEnd (bus : Fin 4) (sensor : Fin 16) (sdaLow : Bool) (s : State) :=
  run (triggerWaitEnd bus.val sensor.val sdaLow) s
def execPollRetry (bus : Fin 4) (sensor : Fin 16) (sdaLow : Bool) (s : State) :=
  run (pollRetry bus.val sensor.val sdaLow) s
def execClockStretchTimeout (bus : Fin 4) (sensor : Fin 16) (s : State) :=
  run (clockStretchTimeout bus.val sensor.val) s
def execEnvelopeSlewUpdate (out : OutRef) (dtUs : Nat) (s : State) := run (slewUpdate out dtUs) s

end Sys2Proof.Machine
end

