-- ==== Sys2Proof/Machine/Gate.lean ====
section
/-! DEFINITION. Gate: the port transmit gate for commanding writes (R259, R260, R277, R288), pending changes handed to a
port (R73, R265), and a delivery sent to whichever stage its point has. -/
namespace Sys2Proof.Machine

/-! ## MODBUS_WRITE (R259) -/

def mapFormat (e : MapEntry) : Nat := fld e.w2 31 24
def mapTable (e : MapEntry) : Nat := fld e.w1 23 22
def mapRole (e : MapEntry) : Nat := fld e.w0 31 28
def mapPort (e : MapEntry) : Nat := fld e.w0 27 23
def mapPoint (e : MapEntry) : Nat := fld e.w0 22 0

/-- Registers of a point value: binary32 over two, high word first; integers by value / SCALE. What a value outside the
integer's range sends is not stated: a free value (log entry 7). -/
def mapRegs (e : MapEntry) (v : Word) (d : Dev) : List Nat × Dev :=
  match mapFormat e with
  | 0 => ([v.toNat / 65536, v.toNat % 65536], d)
  | 3 => ([b2n (!F32.isZero v)], d)
  | f =>
    let q := F32.div v e.w3
    let i := F32.round q
    let lo : Int := if f = 1 then -32768 else 0
    let hi : Int := if f = 1 then 32767 else 65535
    if F32.finite q && decide (lo ≤ i) && decide (i ≤ hi) then ([unsgn 16 i], d)
    else ([(freeWord d).toNat % 65536], drew d)

def be16 (n : Nat) : List Byte := [BitVec.ofNat 8 (n / 256), BitVec.ofNat 8 n]

/-- The write request of an entry: unit, function code 5, 6 or 16, address, data. -/
def modbusWriteBytes (e : MapEntry) (rs : List Nat) : List Byte :=
  let unit := BitVec.ofNat 8 (fld e.w1 31 24)
  let addr := be16 (fld e.w1 15 0)
  if mapTable e = 0 then [unit, 5#8] ++ addr ++ (if rs.getD 0 0 = 0 then [0, 0] else [0xFF, 0])
  else match rs with
    | [r] => [unit, 6#8] ++ addr ++ be16 r
    | _ => [unit, 16#8] ++ addr ++ be16 rs.length ++ [BitVec.ofNat 8 (2 * rs.length)] ++ rs.flatMap be16

/-! ## What an IP port puts on its link (R255) -/

def imgWord (b : List Byte) (o : Nat) : Word := wordAt b o
def imgProto (b : List Byte) : Nat := fld (imgWord b 0) 23 20
def imgService (b : List Byte) (n : Nat) : Bool := imgProto b == 1 && bit (imgWord b 0) n

/-- The tag of a port with VLAN_EN: PCP and VID. -/
def vlanTag (d : Dev) (p : Nat) : Option Half :=
  let w := imgWord (portOf d p).image 8
  if (portOf d p).proto = 1 ∧ bit w 12 then some (hw (fld w 15 13 * 8192 + fld w 11 0)) else none

def bacSend (p kind : Nat) (xs : List Nat) (d : Dev) : Dev := emit (.bacnet p (vlanTag d p) kind xs) d
def modSend (p : Nat) (bs : List Byte) (d : Dev) : Dev := emit (.modbus p (vlanTag d p) bs) d

/-- The 802.1Q tag goes behind the two addresses. -/
def tagged (d : Dev) (p : Nat) (f : List Byte) : List Byte :=
  match vlanTag d p with
  | some t => f.take 12 ++ [0x81, 0] ++ be16 t.toNat ++ f.drop 12
  | none => f

/-- The port polls and writes as a Modbus master or client. -/
def modbusClient (x : Port) : Bool := x.isOpen && (x.proto == 3 || imgService x.image 3) && !x.held

/-! ## MODBUS_WRITE sent -/

def modEntry (i : Nat) (f : MapEntry → MapEntry) (d : Dev) : Dev :=
  { d with ports := { d.ports with map := Tab.upd d.ports.map i f } }

/-- Send one entry's point through its port, its check verified by the encoder (R260). A port that is not open for Modbus
sends it when it is. -/
def modbusSend (i : Nat) (d : Dev) : Dev :=
  match Tab.find d.ports.map i with
  | none => d
  | some e =>
    if !modbusClient (portOf d (mapPort e)) then modEntry i (fun e => { e with owed := true }) d
    else
    let d := modEntry i (fun e => { e with owed := false }) d
    let x := encodeOk (mapPort e) (mapPoint e) d
    match x.1 with
    | none => x.2
    | some r =>
      let y := mapRegs e r.value x.2
      modSend (mapPort e) (modbusWriteBytes e y.1) y.2

/-! ## The gate of one user output -/

/-- A shared point of a pair leaves only the active device (R298, R299). -/
def gateClosed (d : Dev) (id : Nat) : Bool := d.pair.enabled && d.pair.role != 2 && d.pair.shared.contains id

/-- What passes the gate goes to the Kwela device that lists the point, unless it is SILENT (R277, R280), and to every
MODBUS_WRITE entry of the point. -/
def gateAct (id : Nat) (claim : Half) (d : Dev) : Bool × Dev :=
  if gateClosed d id then (false, d)
  else
  let d := match kwOutput d id with
    | some a =>
      if ((Tab.find d.kw.devices a).map (·.silent)).getD false then d
      else
        let y := readRec id d
        match y.1 with
        | some (r, true) =>
          let x : Delivery :=
            { id := id, value := r.value, quality := recQ r, check := r.check, stamp := r.stamp, claim := claim }
          { y.2 with kw := { y.2.kw with pendingOut := y.2.kw.pendingOut ++ [x] } }
        | _ => y.2
    | none => d
  (true, forEach (modbusOuts d id) modbusSend d)

/-- Points bound to a transmit gate: Kwela OUTPUT listings and MODBUS_WRITE entries. -/
def userOutputs (d : Dev) : List Nat :=
  ((d.kw.devices.flatMap fun v => (v.2.listings.filter fun l => l.2).map Prod.fst) ++
    ((d.ports.map.filter fun e => mapRole e.2 == 4).map fun e => mapPoint e.2)).eraseDups

/-- Once every bound point has left HELD or NO_OWNER, the gates have. -/
def gateSettle (d : Dev) : Dev :=
  if stageState d 999 ≠ 0 && (userOutputs d).all fun id => stageState d (1000 + id) == 0 then setStage 999 0 d else d

/-- The refresh of a Kwela output: the record with its kept quality goes out as a COMMAND, and the output leaves HELD
when the device acknowledges it (R293). A SILENT device is sent none (R280). -/
def refreshKwela (v : KDevice) (x : Delivery) (d : Dev) : StageRes × Dev :=
  if v.silent then (.refused, d)
  else
    let z := readRec x.id d
    match z.1, z.2 with
    | some (r, true), d =>
      let q := (Tab.find d.pe.kept x.id).getD (recQ r)
      let y := { x with value := r.value, quality := q, check := pointCheck x.id r.value q r.kind, stamp := r.stamp }
      (.accepted, { d with kw := { d.kw with pendingOut := d.kw.pendingOut ++ [y] } })
    | _, d => (.badCheck, d)

def deliverGate (x : Delivery) (d : Dev) : StageRes × Dev :=
  let v := (kwOutput d x.id).bind fun a => Tab.find d.kw.devices a
  let p := match v with
    | some v =>
      if x.refresh && x.claim == d.belay.owner && !gateClosed d x.id && !heldBack d x.id &&
         (envelopeBreak d x.id (((recOf d x.id).map Rec.value).getD 0#32)).isNone then
        refreshKwela v x (forEach (modbusOuts d x.id) modbusSend d)
      else stageTake (1000 + x.id) (fun _ => gateAct x.id x.claim) x d
    | none => stageTake (1000 + x.id) (fun _ => gateAct x.id x.claim) x d
  (p.1, if x.refresh then gateSettle p.2 else p.2)

/-! ## Any stage -/

/-- A delivery at the stage of its point; `cmd` is the COIL_CMD that made it, if one did. -/
def deliverAny (cmd : Option HostCmd) (x : Delivery) (d : Dev) : StageRes × Dev :=
  match stageOf d x.id with
  | none => (.accepted, d)
  | some k =>
    if k < 48 then deliverCoil k cmd x d
    else if k < 64 then deliverAo (k - 48) x d
    else if k < 80 then deliverTg (k - 64) x d
    else if k < 88 then deliverFan (k - 80) x d
    else deliverGate x d

/-- Every delivery of a point on its way, in order; the answer is that of the last. -/
def drainStage (id : Nat) (cmd : Option HostCmd) : Nat → Option StageRes → Dev → Option StageRes × Dev
  | 0, r, d => (r, d)
  | k + 1, r, d =>
    let p := popDelivery id d
    match p.1 with
    | none => (r, d)
    | some x =>
      let last := (p.2.pe.deliveries.find? fun y => y.id == id).isNone
      let z := deliverAny (if last then cmd else none) x p.2
      drainStage id cmd k (some z.1) z.2

def drainPoint (id : Nat) (cmd : Option HostCmd) (d : Dev) : Option StageRes × Dev :=
  drainStage id cmd (d.pe.deliveries.length + 1) none d

/-! ## One port (R73, R260, R265) -/

/-- The port may not send non-essential traffic now (R265, R397). -/
def portWaits (d : Dev) (p : Nat) : Bool := (portOf d p).qTx || (portOf d p).held

/-- A BACnet notification of map entry `i` goes to each client that subscribed, or waits for the client's port: `binding` is
4,096 × the client's own number plus the port it came by. -/
def notifyBindings (p i : Nat) (r : Rec) (id : Nat) (d : Dev) : Dev :=
  match Tab.find d.ports.map i with
  | none => bacSend p 1 [id, r.value.toNat, recQ r] d
  | some e => forEach e.bindings (fun b d =>
      if portWaits d (b % 4096) then modEntry i (fun e => { e with unsent := e.unsent.erase b ++ [b] }) d
      else bacSend (b % 4096) 1 [id, r.value.toNat, recQ r, b / 4096] d) d

/-- Notifications that waited for a port go out with the records as they stand (R72, R265). -/
def sendUnsent (p : Nat) (d : Dev) : Dev :=
  forEach d.ports.map (fun m d =>
    forEach (m.2.unsent.filter fun b => b % 4096 == p) (fun b d =>
      let x := encodeOk p (mapPoint m.2) (modEntry m.1 (fun e => { e with unsent := e.unsent.erase b }) d)
      match x.1 with
      | some r => bacSend p 1 [mapPoint m.2, r.value.toNat, recQ r, b / 4096] x.2
      | none => x.2) d) d

/-- The change of a MODBUS_WRITE entry: what its gate has let through has gone; of a point with a stage of its own, which no
delivery brings to the gate, the value goes now if the gate is open (R259, R288). -/
def portWrite (i id : Nat) (d : Dev) : Dev :=
  let d := (drainPoint id none d).2
  let owed := ((Tab.find d.ports.map i).map (·.owed)).getD false
  let own := decide (stageOf d id ≠ some (1000 + id)) || !((recOf d id).map commandable).getD false
  if owed || own then modbusSend i d else d

/-- The gate of a point that leaves by a port lets nothing through for now (R291, R299). -/
def gateShut (d : Dev) (id : Nat) : Bool := stageState d (1000 + id) != 0 || gateClosed d id || d.belay.owner == 0#16

/-- Hand one pending change to the protocol core of the port: an entry that commands the wire sends it through the
gate, any other notifies. One whose check fails, or whose gate is shut, stays pending (R72, R260). -/
def portCov (p i : Nat) (d : Dev) : Dev :=
  match subAt d i with
  | none => d
  | some s =>
    let k := fld s.target 27 5
    let done := fun (r : Rec) (d : Dev) => match subAt d i with
      | some s => refreshCov s.point (putSub i (sent s r) d)
      | none => d
    if ((Tab.find d.ports.map k).map mapRole) = some 4 then
      if gateShut d s.point then d
      else match recOf d s.point with
        | some r => done r (portWrite k s.point d)
        | none => d
    else
      let x := encodeOk p s.point d
      match x.1 with
      | some r => done r (notifyBindings p k r s.point x.2)
      | none => x.2

/-- An alarm leaves with its value once the value's check is verified (R260); one that fails is counted and not sent. -/
def portAlarm (p : Nat) (a : Alarm) (d : Dev) : Dev :=
  let d := { d with pe := { d.pe with
      alarms := d.pe.alarms.map fun x => if x.seq = a.seq then { x with ports := x.ports.filter (· != p) } else x } }
  if decide (a.quality < 8) && a.check == pointCheck a.point a.value a.quality a.kind then
    bacSend p 2 [a.point, a.fromState, a.toState, a.value.toNat] d
  else
    let d := modPort p (fun x => { x with checkFail := up16 x.checkFail }) d
    testSource a.point (((recOf d a.point).map (·.source)).getD 0#32) d

/-- The pending change of a subscription is essential traffic: a Modbus write (R265). -/
def essentialSub (d : Dev) (i : Nat) : Bool :=
  match Tab.find d.pe.subs i with
  | some (.sub s) => ((Tab.find d.ports.map (fld s.target 27 5)).map mapRole) == some 4
  | _ => false

/-- A transmission of the port: a frame, or a BACnet message by its kind. -/
def transmit (p kind : Nat) (xs : List Nat) (d : Dev) : Dev :=
  if kind = 0 then emit (.frame p (xs.map (BitVec.ofNat 8))) d else bacSend p kind xs d

/-- A non-essential transmission waits while the port is quenched for it, or its core is held (R265, R397). -/
def sendLater (p kind : Nat) (xs : List Nat) (d : Dev) : Dev :=
  if portWaits d p then modPort p (fun x => { x with waitTx := x.waitTx ++ [(kind, xs)] }) d else transmit p kind xs d

/-! ## The IP stack (R256), what a core serves of itself (R263) -/

def be32 (b : List Byte) (i : Nat) : Word :=
  wd (byteAt b i * 16777216 + byteAt b (i + 1) * 65536 + byteAt b (i + 2) * 256 + byteAt b (i + 3))

def bytes64 (v : BitVec 64) : List Byte := (List.range 8).map fun i => BitVec.ofNat 8 (v.toNat / 256 ^ (7 - i))

/-- The IPv6 addresses of a port: link-local, and SLAAC's once a prefix is known. -/
def addrs6 (x : Port) (p : Nat) : List (List Byte) :=
  let own := bytes64 (Config.ifaceId p)
  if !imgService x.image 5 then []
  else ([0xFE, 0x80, 0, 0, 0, 0, 0, 0] ++ own) :: (x.prefix6.map (· ++ own)).toList

/-- The /64 prefix of a router advertisement's options. -/
def prefixOf : Nat → List Byte → Option (List Byte)
  | 0, _ => none
  | n + 1, b =>
    if b.length < 8 ∨ byteAt b 1 = 0 then none
    else if byteAt b 0 = 3 ∧ byteAt b 2 = 64 ∧ 32 ≤ b.length then some ((b.drop 16).take 8)
    else prefixOf n (b.drop (8 * byteAt b 1))

/-- Where an answer to an IPv4 address goes: the address itself on the port's own network, else the gateway. -/
def nextHop (x : Port) (dst : Word) : Word := if dst &&& x.mask4 = x.ip4 &&& x.mask4 then dst else x.gw4

/-- The IP stack takes one frame: an ARP request and an ICMP echo for the port's IPv4 address, a neighbour solicitation for
one of its IPv6 addresses are answered, a router advertisement gives SLAAC its prefix. The layouts are those of the
Internet standards that the rule names (PRESUMED, log entry 168). -/
def ipFrame (p : Nat) (f : Frame) (d : Dev) : Dev :=
  let x := portOf d p
  let b := f.data.drop (if f.vid.isSome then 18 else 14)
  let answer := fun hop bs => emit (.ip p (vlanTag d p) f.kind hop bs) d
  match f.kind with
  | .arp =>
    if x.addrOk && byteAt b 7 == 1 && be32 b 24 == x.ip4 then
      answer (be32 b 14) (be16 2 ++ (b.drop 24).take 4 ++ (b.drop 14).take 4) else d
  | .icmp =>
    let o := 4 * (byteAt b 0 % 16)
    if x.addrOk && byteAt b o == 8 && be32 b 16 == x.ip4 then answer (nextHop x (be32 b 12)) (0 :: b.drop (o + 1)) else d
  | .neighbour =>
    if byteAt b 40 = 135 ∧ (addrs6 x p).contains ((b.drop 48).take 16) then
      answer 0#32 (136 :: (b.drop 48).take 16)
    else if byteAt b 40 = 134 then
      (match prefixOf b.length (b.drop 56) with
      | some q => setPort p { x with prefix6 := some q } d
      | none => d)
    else d
  | _ => d

/-- The IP stack answers these, and no command carries what they ask. -/
def servedAtOnce (f : Frame) : Bool :=
  match f.kind with
  | .arp | .icmp | .dhcp | .neighbour => true
  | _ => f.bare

/-- The core of a port works off the frames of its queue that no command takes, in order. -/
def serveCore (p : Nat) (d : Dev) : Dev :=
  let x := portOf d p
  if x.held then d
  else forEach (x.coreQ.filter servedAtOnce) (ipFrame p) (setPort p { x with coreQ := x.coreQ.filter fun f => !servedAtOnce f } d)

/-- A protocol core takes the oldest queued frame of a kind it serves (R263). -/
def takeCore (p : Nat) (ks : List FrameKind) (d : Dev) : Dev :=
  let d := serveCore p d
  let x := portOf d p
  match x.coreQ.find? fun f => ks.contains f.kind with
  | some f => setPort p { x with coreQ := x.coreQ.erase f } d
  | none => d

/-- Deliver to an open port whose queue has `room`: alarms in sequence order, then pending changes; only essential ones
while non-essential transmit is quenched (R265), none while its core is held (R397). -/
def flushPort (p room : Nat) (d : Dev) : Dev :=
  let x := portOf d p
  if !x.isOpen || x.held then d
  else
    let d := if x.qTx then d
      else sendUnsent p (forEach x.waitTx (fun w d => transmit p w.1 w.2 d) (setPort p { x with waitTx := [] } d))
    let as := if x.qTx then [] else (d.pe.alarms.filter fun a => a.ports.contains p).take room
    let d := forEach as (portAlarm p) d
    let subs := (pendingSubs d 2 p).filter fun i => !x.qTx || essentialSub d i
    forEach (subs.take (room - as.length)) (portCov p) d

/-! ## Status registers of outputs (R243–R250) -/

def heldBit (d : Dev) (k : Nat) : Bool := stageState d k == 1

def aoStatus (d : Dev) (n : Nat) : Word :=
  let x := aoOf d n
  wd (at' 4 (x.code % 4096) + at' 2 (b2n (heldBit d (48 + n))) + at' 1 (b2n x.limited) + b2n x.short)

def tgStatus (d : Dev) (n : Nat) : Word :=
  let x := tgOf d n
  wd (at' 17 (b2n x.nolock) + at' 16 (b2n (heldBit d (64 + n))) + x.angle % 65536)

def fanStatus (d : Dev) (n : Nat) : Word :=
  let x := fanOf d n
  wd (at' 16 (min 65535 x.rpm) + at' 6 (x.duty % 1024) + at' 2 (b2n (heldBit d (80 + n))) + at' 1 (b2n x.stall))

end Sys2Proof.Machine
end

