-- ==== Sys2Proof/Machine/PointCmds.lean ====
section
/-! DEFINITION. PointCmds: the point engine's events (R60, R64, R65, R77, R78, R81) and the POINT and TREND commands
(R67–R70, R75, R83, R362, R363, R366, R468). -/
namespace Sys2Proof.Machine

/-! ## POINT_DEFINE (R39, R44, R45, R57, R363) -/

/-- First field of a point definition at fault, as its offset in the definition. -/
def definitionFault (b : Nat → Word) : Option Nat :=
  let w := b 0
  let kind := fld w 7 0
  let cmd := bit w 8 || kindAlways kind
  let cov := b 4
  let min := kind == 5 || (kind == 6 && cmd)
  if fld w 31 12 ≠ 0 ∨ kind = 0 ∨ 10 < kind then some 0
  else if cmd && kindInput kind then some 0
  else if !kindMulti kind && (F32.neg? cov && !F32.isZero cov || !F32.finite cov) then some 4
  else if kindMulti kind && !(isWhole cov && F32.le (F32.ofNat 2) cov && F32.le cov (F32.ofNat 65535)) then some 4
  else if cmd && !valueFits kind cov (b 8) then some 8
  else if b 0xC ≠ 0#32 ∧ !min then some 0xC
  else if bit w 11 && !cmd && !valueFits kind cov (b 0x10) then some 0x10
  else if bit (b 0x14) 31 then some 0x14
  else if b 0x18 ≠ 0#32 then some 0x18
  else if b 0x1C ≠ 0#32 then some 0x1C
  else none

/-- The definition clears GUARDED, or changes OUT_OF_SERVICE of a GUARDED point (R358). -/
def definitionGuarded (r : Option Rec) (w : Word) : Bool :=
  match r with
  | none => false
  | some r => guardedOf r && (!bit w 9 || bit w 10 != outOfService r)

/-- PRIO entries taken: the predefined 88 and one for each commandable user point (R39, R63). -/
def prioTaken (d : Dev) : Nat := 88 + (d.pe.prios.filter fun p => decide (88 ≤ p.1)).length

/-- The definition asks for a change that R39 or R363 forbids. -/
def definitionConflict (id : Nat) (r : Rec) (b : Nat → Word) : Bool :=
  let w := b 0
  let kind := fld w 7 0
  let cmd := bit w 8 || kindAlways kind
  kind != r.kind || cmd != commandable r ||
  (isPredef id && (bit w 11 || bit w 10 != outOfService r || b 0xC != 0#32))

def setFlags (w : Word) (r : Rec) : Rec := setStBit (setStBit r 6 (bit w 9)) 9 (bit w 10)

/-- ALARM as the limit block now named says (R77). -/
def withAlarm (d : Dev) (ref : Word) (r : Rec) : Rec :=
  setStBit r 5 (((limitOf d ref).map fun l => limitState l != 0).getD false)

/-- A new user point. -/
def defineNew (id : Nat) (b : Nat → Word) (d : Dev) : Done × Dev :=
  let w := b 0
  let kind := fld w 7 0
  let cmd := bit w 8 || kindAlways kind
  let q := if bit w 11 then qGood else qUncom
  let base : Rec :=
    { value := 0#32, check := 0#16, status := hw q, stamp := now d, kind := kind, prio := 0, wall := wallTime d,
      source := 0#32, cov := b 4, link := 0#32 }
  if cmd then
    let i := prioTaken d
    if ((d.pe.plan.map (·.commandable)).getD 0) ≤ i then (fail stNoCapacity, d)
    else
      let link := wd (2147483648 + i)
      let r := setStBit (setFlags w { base with value := b 8, link := link }) 7 true
      let p : Prio :=
        { dflt := b 8, minOn := fld (b 0xC) 15 0, minOff := fld (b 0xC) 31 16, limit := b 0x14 }
      let d := setPrio r p d
      (okWith link, afterStore id (putRec id r (withCheck id (withAlarm d (b 0x14) r)) d))
  else
    let r := setFlags w { base with value := if bit w 11 then b 0x10 else 0#32, link := b 0x14 }
    (okWith (b 0x14), afterStore id (putRec id r (withCheck id (withAlarm d (b 0x14) r)) d))

/-- A commandable point redefined: its levels stay, the relinquish default and minimum times are replaced, and the array
is resolved anew. -/
def redefineCmd (id : Nat) (r : Rec) (b : Nat → Word) (d : Dev) : Done × Dev :=
  let w := b 0
  let d := verifyChange id r d
  let p := { prioOf d r with dflt := b 8, limit := b 0x14 }
  let p := if isPredef id then p else { p with minOn := fld (b 0xC) 15 0, minOff := fld (b 0xC) 31 16 }
  let p := if hasMinTimes p then p else { p with slots := Tab.del p.slots 6 }
  let x := resolveRec d r p none
  let q := if x.1.prio ≠ 0 then recQ x.1 else if isPredef id then recQ r else if bit w 11 then qGood else qUncom
  let n := setQ (setFlags w { x.1 with cov := b 4, stamp := now d }) q
  let d := setPrio r x.2 d
  let h := showHeld id (withAlarm d (b 0x14) n) d
  let n := withCheck id h.1
  let d := afterStore id (putRec id r n h.2)
  let d := if F32.ne n.value r.value || (outOfService r && !outOfService n) then deliver id n 0#16 d else d
  (okWith r.link, d)

/-- A point without a priority array redefined. -/
def redefinePlain (id : Nat) (r : Rec) (b : Nat → Word) (d : Dev) : Done × Dev :=
  let w := b 0
  let keeps := isPredef id || !bit w 11
  if keeps && !checkOk id r then (fail stCheckFail (wd id), failRecord id r d)
  else
    let d := verifyChange id r d
    let n := setFlags w { r with cov := b 4, link := b 0x14 }
    let n := if isPredef id then n
      else if bit w 11 then setQ { n with value := b 0x10, stamp := now d } qGood
      else setQ { n with stamp := now d } qUncom
    (okWith (b 0x14), afterStore id (putRec id r (withCheck id (withAlarm d (b 0x14) n)) d))

/-- A definition of a point. `off` places a field of the definition in the descriptor or the buffer, `idAt` the ID. One that
names no point, 0x7F_FFFF, answers NOT_FOUND as a read of it does (R37; log entry 162). -/
def definePoint (id : Nat) (auth : Bool) (b : Nat → Word) (off : Nat → Done) (idAt : Done) (d : Dev) : Done × Dev :=
  if id = 0x7FFFFF then (fail stNotFound (wd id), d)
  else if 0x500000 ≤ id then (idAt, d)
  else if planN d ≤ id ∧ !isPredef id then (fail stNoCapacity, d)
  else if isPredef id && (recOf d id).isNone then (fail stNotFound (wd id), d)
  else if definitionGuarded (recOf d id) (b 0) && !auth then (fail stAuthRequired, countAuth false d)
  else match definitionFault b with
    | some o => (off o, d)
    | none =>
      let d := commitQueued (engineOp id (.quality 0) d) d
      match recOf d id with
      | none => defineNew id b d
      | some r =>
        if definitionConflict id r b then (fail stConflict, d)
        else if commandable r then redefineCmd id r b d
        else redefinePlain id r b d

def pointDefine (c : HostCmd) (d : Dev) : Option Done × Dev :=
  if shortBuf c 32 then (some (badField 0x28), d)
  else
    let r := definePoint c.target.toNat (authorised c) (fun o => wordAt c.buf o) badBuf (badField 8) d
    (some r.1, r.2)

/-! ## Reading (R51, R362) -/

/-- VALUE, STATUS with CHECK, STAMP_CYCLE. -/
def readDone (r : Rec) : Done := okWith r.value (wd (at' 16 r.status.toNat + r.check.toNat)) r.stamp.cycle

def pointRead (c : HostCmd) (d : Dev) : Option Done × Dev :=
  let id := c.target.toNat
  let x := readRec id d
  match x.1 with
  | none => (some (idFailure id), d)
  | some (_, false) => (some (fail stCheckFail (wd id)), x.2)
  | some (r, true) =>
    if c.bufLen = 0 then (some (readDone r), d)
    else if shortBuf c 32 then (some (badField 0x28), d)
    else (some (readDone r), outBuf c (wordsBytes (recWords r)) d)

/-- One record of POINT_READ_MANY: counts of records read, not found, failed. -/
def readOne (a : Nat) (ids : List Nat) (n : Nat × Nat × Nat) (d : Dev) : (Nat × Nat × Nat) × Dev :=
  match ids with
  | [] => (n, d)
  | id :: rest =>
    let x := readRec id d
    match x.1 with
    | none =>
      readOne (a + 32) rest (n.1, n.2.1 + 1, n.2.2)
        (hostWrite a (wordsBytes [0#32, 0#32, 0#32, 0#32, 0#32, all1, 0#32, 0#32]) d)
    | some (r, good) =>
      let r := (recOf x.2 id).getD r
      readOne (a + 32) rest (n.1 + 1, n.2.1, if good then n.2.2 else n.2.2 + 1) (hostWrite a (wordsBytes (recWords r)) x.2)

def pointReadMany (c : HostCmd) (d : Dev) : Option Done × Dev :=
  let n := c.count.toNat
  let a := addr64 c.p0 c.p1
  if n = 0 ∨ 65536 < n then (some (badField 0xC), d)
  else if shortBuf c (4 * n) then (some (badField 0x28), d)
  else if !canWrite d a (32 * n) then (some (badField 0x10), d)
  else
    let r := readOne a ((List.range n).map fun i => (wordAt c.buf (4 * i)).toNat) (0, 0, 0) d
    (some (okWith (wd r.1.1) (wd r.1.2.1) (wd r.1.2.2)), r.2)

/-! ## Writing (R366) -/

/-- What reached the output. -/
def stageStatus (hasStage : Bool) (r : Option StageRes) (x : Done) : Done :=
  match r with
  | none => if hasStage then { x with status := stDeferred } else x
  | some .accepted => x
  | some (.envelope l) => fail stEnvelope l
  | some _ => { x with status := stDeferred }

/-- A host's write that was not stored. -/
def writeFailure (id : Nat) (v : Word) (r : Option Rec) : PRes → Done
  | .stored => ok
  | .discarded => ok
  | .notFound => idFailure id
  | .conflict => fail stConflict
  | .checkFail => fail stCheckFail (wd id)
  | .hwFault => fail stHwFault (wd unitPipes)
  | .guarded => fail stAuthRequired
  | .badFormat =>
    match r with
    | some r => if valueFits r.kind (statesOf r) v then badField 0x14 else badField 0x10
    | none => badField 0x10
  | .envelope l => fail stEnvelope l

/-- A host's operation on a point: committed, delivered, and its outcome; `res` gives the results of success. -/
def hostPoint (c : HostCmd) (id : Nat) (act : PointAct) (cmd : Option HostCmd) (res : Dev → Done) (d : Dev) :
    Option StageRes × Done × Dev :=
  let v := match act with
    | .write v _ _ _ => v
    | _ => 0#32
  let op : PointOp :=
    { id := id, act := act, stamp := now d, source := srcHost c.sq.val, writer := .host, authorised := authorised c }
  let x := perform op (commitQueued op d)
  match x.1 with
  | .stored =>
    let y := drainPoint id cmd x.2
    (y.1, stageStatus (stageOf d id).isSome y.1 (res y.2), y.2)
  | f => (none, writeFailure id v (recOf d id) f, x.2)

/-- Results of POINT_WRITE and POINT_RELINQUISH. -/
def writeDone (id : Nat) (d : Dev) : Done :=
  match recOf d id with
  | some r => okWith r.value (wd (at' 16 r.status.toNat + r.check.toNat)) (wd r.prio)
  | none => ok

def pointWrite (c : HostCmd) (d : Dev) : Option Done × Dev :=
  let id := c.target.toNat
  let x := hostPoint c id (.write c.p0 qGood none (fld c.p1 4 0)) none (writeDone id) d
  (some x.2.1, x.2.2)

def pointRelinquish (c : HostCmd) (d : Dev) : Option Done × Dev :=
  let id := c.target.toNat
  let x := hostPoint c id (.relinquish (fld c.p1 4 0)) none (writeDone id) d
  -- the only field a relinquish can break is its priority
  (some (if x.2.1.status = stBadFormat ∧ (recOf d id).isSome then badField 0x14 else x.2.1), x.2.2)

/-- AO_SET, TG_SET, FAN_SET: RESULT0 the value the stage applies, RESULT1 its STATUS register. -/
def outputSet (n top : Nat) (id : Nat → Nat) (res : Nat → Dev → Done) (c : HostCmd) (d : Dev) : Option Done × Dev :=
  if top ≤ n then (some (badField 8), d)
  else
    let x := hostPoint c (id n) (.write c.p0 qGood none (fld c.p1 4 0)) none (res n) d
    (some x.2.1, x.2.2)

def aoSet (c : HostCmd) : Dev → Option Done × Dev :=
  outputSet c.target.toNat 16 aoId (fun n d => okWith (aoOf d n).applied (aoStatus d n)) c
def tgSet (c : HostCmd) : Dev → Option Done × Dev :=
  outputSet c.target.toNat 16 tgId (fun n d => okWith (tgOf d n).value (tgStatus d n)) c
def fanSet (c : HostCmd) : Dev → Option Done × Dev :=
  outputSet c.target.toNat 8 fanId (fun n d => okWith (fanOf d n).applied (fanStatus d n)) c

/-- COIL_CMD (R224, R366): its outcome is its channel's; one the bank did not take completes here. -/
def coilCmd (c : HostCmd) (d : Dev) : Option Done × Dev :=
  let ch := c.target.toNat
  if 48 ≤ ch then (some (badField 8), d)
  else
    let x := hostPoint c (predefBase + coilPoint ch 0) (.write c.p0 qGood none (fld c.p1 4 0)) (some c)
      (fun d => coilResults stOk (chanOf d ch) 0#32) d
    let d := x.2.2
    let waits := (chanOf d ch).waiting.contains c
    let past := !(d.hif.fetched.any (sameCmd 0x0504 c))
    if waits || past then (none, d) else (some x.2.1, d)

/-! ## Free SUB entries (R70, R75) -/

/-- The lowest unlisted key of a table, from `i` on. -/
def lowFree : Tab α → Nat → Nat
  | [], i => i
  | (k, _) :: t, i => if k = i then lowFree t (i + 1) else if k < i then lowFree t i else i

/-- The lowest even-aligned pair of unlisted keys, as half its first key, from pair `p` on. -/
def lowPair : Tab α → Nat → Nat
  | [], p => p
  | (k, _) :: t, p => if p < k / 2 then p else lowPair t (max p (k / 2 + 1))

def subCap (d : Dev) : Nat := (d.pe.plan.map (·.subs)).getD 0
def subsFree (d : Dev) : Nat := subCap d - d.pe.subs.length

/-- A subscription whose neighbour in its pair is free and in the plan: its index. -/
def movableSub (d : Dev) : Option Nat :=
  (d.pe.subs.find? fun p => match p.2 with
    | .sub _ =>
      let o := if p.1 % 2 = 0 then p.1 + 1 else p.1 - 1
      decide (o < subCap d) && (Tab.find d.pe.subs o).isNone
    | _ => false).map Prod.fst

/-- Two consecutive free entries, a subscription being moved out of the way when there are none (R70). Limit blocks take
even-aligned pairs, so two free entries always suffice. -/
def takePair (d : Dev) : Option (Nat × Dev) :=
  let p := lowPair d.pe.subs 0
  if 2 * p + 1 < subCap d then some (2 * p, d)
  else if subsFree d < 2 then none
  else match movableSub d with
    | none => none
    | some i =>
      match subAt d i with
      | none => none
      | some s =>
        let o := if i % 2 = 0 then i + 1 else i - 1
        some (2 * (i / 2), moveSub i (lowFree (Tab.put d.pe.subs o .second) 0) s d)

/-- A new subscription delivers the point's state at once (R69), with merge count 1; until then LAST_SENT, LAST_QUALITY and
LAST_FLAGS are the record's at the creation (DESIGN CHOICE, log entry 166). None when the plan's count is used up. -/
def addSub (cls id : Nat) (target : Word) (r : Rec) (d : Dev) : Option (Nat × Dev) :=
  let i := lowFree d.pe.subs 0
  if subCap d ≤ i then none
  else
    let s : Sub :=
      { cls := cls, point := id, target := target, pending := false, lastQuality := recQ r, lastSent := r.value,
        lastFlags := flagsOf r, merged := 0, order := 0, fresh := true }
    some (i, refreshCov id (noteSub r i (linkSub i s d)))

def findSub (d : Dev) (cls id : Nat) (target : Word) : Option Nat :=
  ((subsOf d id).find? fun p => p.2.cls == cls && p.2.target == target).map Prod.fst

def dropSub (i id : Nat) (d : Dev) : Dev :=
  match subAt d i with
  | some s => refreshCov id (unlinkSub i s d)
  | none => d

/-! ## POINT_SUBSCRIBE, POINT_UNSUBSCRIBE (R67–R70) -/

/-- The class and the target break R67 or R68, or the target is quenched. -/
def targetFault (cls : Nat) (t : Word) (d : Dev) : Option Done :=
  if cls = 0 ∨ 3 < cls then some (badField 0x10)
  else if cls = 1 then
    (if t = 0#32 ∨ 32 ≤ t.toNat then some (badField 0x14)
     else if d.hif.quenchedCq / 2 ^ t.toNat % 2 = 1 then some (fail stQuenched t) else none)
  else if cls = 2 then (if 24 ≤ fld t 4 0 ∨ fld t 31 28 ≠ 0 then some (badField 0x14) else none)
  else if 524288 ≤ t.toNat then some (badField 0x14) else none

def pointSubscribe (c : HostCmd) (d : Dev) : Option Done × Dev :=
  let id := c.target.toNat
  let cls := fld c.p0 2 0
  match recOf d id with
  | none => (some (idFailure id), d)
  | some _ =>
    match targetFault cls c.p1 d with
    | some x => (some x, d)
    | none =>
      let x := readRec id d
      match x.1 with
      | some (r, true) =>
        if (findSub d cls id c.p1).isSome then (some (fail stConflict), d)
        else match addSub cls id c.p1 r d with
          | none => (some (fail stNoCapacity), d)
          | some (i, d) => (some (okWith (wd i)), d)
      | _ => (some (fail stCheckFail (wd id)), x.2)

def pointUnsubscribe (c : HostCmd) (d : Dev) : Option Done × Dev :=
  let id := c.target.toNat
  match recOf d id with
  | none => (some (idFailure id), d)
  | some _ =>
    match findSub d (fld c.p0 2 0) id c.p1 with
    | none => (some (fail stNotFound (wd id)), d)
    | some i => (some (okWith (wd i)), dropSub i id d)

/-! ## POINT_LIMITS (R75, R76, R79, R468) -/

/-- The first field of a limit block that breaks R75 or R76. -/
def limitFault (kind : Nat) (b : List Byte) : Option Nat :=
  let w := wordAt b 0x10
  let high := bit w 0
  let low := bit w 1
  if high && low && !(F32.gt (wordAt b 0) (wordAt b 4)) then some 0
  else if !F32.ge (wordAt b 8) F32.zero then some 8
  else if bit w 31 ∨ fld w 15 7 ≠ 0 ∨ bit w 3 then some 0x10
  else if (high || low) && !(kindAnalog kind || kind == 10) then some 0x10
  else if fld (wordAt b 0x1C) 7 6 ≠ 0 then some 0x1C
  else if bit (wordAt b 0x1C) 5 && fld (wordAt b 0x1C) 4 0 = 0 then some 0x1C
  else none

/-- The block as written, with the state and the class the device keeps. -/
def limitOfBuf (id state : Nat) (b : List Byte) : Limit :=
  { high := wordAt b 0, low := wordAt b 4, deadband := wordAt b 8, delays := wordAt b 0xC,
    w10 := setFld (setFld (wordAt b 0x10) 30 28 5) 19 16 state, staleAfter := wordAt b 0x14, pendSince := 0#32,
    targets := wordAt b 0x1C, pendTo := none, point := id }

def setLimitRef (id : Nat) (r : Rec) (ref : Word) (d : Dev) : Dev :=
  if commandable r then setPrio r { prioOf d r with limit := ref } d
  else { d with pe := { d.pe with recs := Tab.put d.pe.recs id { r with link := ref } } }

/-- The state is one the new configuration no longer enables. -/
def stateDisabled (l : Limit) : Bool :=
  match limitState l with
  | 1 => !bit l.w10 0
  | 2 => !bit l.w10 1
  | 3 => !bit l.w10 2
  | _ => false

def limitsSet (id : Nat) (r : Rec) (b : List Byte) (d : Dev) : Done × Dev :=
  match limitFault r.kind b with
  | some o => (badBuf o, d)
  | none =>
    match limitOf d (limitRef d r) with
    | some l =>
      let ref := limitRef d r
      let n := limitOfBuf id (limitState l) b
      let d := putLimit ref n d
      (okWith ref, if stateDisabled n then noteChange id (enterLimit id ref 0 d) else d)
    | none =>
      match takePair d with
      | none => (fail stNoCapacity, d)
      | some (i, d) =>
        let d := putLimit (wd i) (limitOfBuf id 0 b) d
        let d := { d with pe := { d.pe with subs := Tab.put d.pe.subs (i + 1) .second } }
        (okWith (wd i), setLimitRef id r (wd i) d)

/-- The ALARM bit clears at a deletion, which is a change of value. -/
def clearAlarm (id : Nat) (d : Dev) : Dev :=
  match recOf d id with
  | some r =>
    if alarmOf r then noteChange id { d with pe := { d.pe with recs := Tab.put d.pe.recs id (setStBit r 5 false) } } else d
  | none => d

def limitsDelete (id : Nat) (r : Rec) (d : Dev) : Done × Dev :=
  let ref := limitRef d r
  match limitOf d ref with
  | none => (fail stNotFound (wd id), d)
  | some _ =>
    let i := fld ref 22 0
    let d := { d with pe := { d.pe with subs := Tab.del (Tab.del d.pe.subs i) (i + 1) } }
    (okWith noLimit, clearAlarm id (setLimitRef id r noLimit d))

/-- Acknowledge the entry of a transition, by point, TO state and stamp (R79). -/
def ackAlarm (id toW : Nat) (s : Stamp) (d : Dev) : Option Dev :=
  let hit := fun (a : Alarm) => a.point == id && a.toState == toW && a.stamp == s
  if d.pe.alarms.any hit then
    some { d with pe := { d.pe with alarms := d.pe.alarms.map fun a => if hit a then { a with acked := true } else a } }
  else none

def pointLimits (c : HostCmd) (d : Dev) : Option Done × Dev :=
  let id := c.target.toNat
  match recOf d id with
  | none => (some (idFailure id), d)
  | some r =>
    match fld c.p0 1 0 with
    | 0 =>
      if shortBuf c 32 then (some (badField 0x28), d)
      else
        let x := limitsSet id r c.buf d
        (some x.1, x.2)
    | 1 =>
      let x := limitsDelete id r d
      (some x.1, x.2)
    | 2 =>
      match ackAlarm id (fld c.p1 3 0) ⟨c.p2, hw c.p3.toNat⟩ d with
      | some e => (some (okWith (limitRef d r)), e)
      | none => (some (fail stNotFound (wd id)), d)
    | _ => (some (badField 0x10), d)

/-! ## TREND_DEFINE, TREND_READ (R81–R85, R362, R363) -/

def trendPeriodic (t : Trend) : Bool := t.mode % 2 == 1
def trendCov (t : Trend) : Bool := decide (2 ≤ t.mode)

/-- The first field of a trend definition at fault, in the buffer. -/
def trendFault (b : List Byte) : Option Nat :=
  let w := wordAt b 4
  let period := (wordAt b 8).toNat
  if 8388608 ≤ (wordAt b 0).toNat then some 0
  else if fld w 31 8 ≠ 0 ∨ fld w 7 3 = 0 ∨ fld w 1 0 = 0 then some 4
  else if period = 0 ∨ 16777215 < period then some 8
  else if period ≤ (wordAt b 0xC).toNat then some 0xC
  else if (wordAt b 0x10).toNat < 16 ∨ 67108864 < (wordAt b 0x10).toNat then some 0x10
  else if 16777215 < (wordAt b 0x14).toNat then some 0x14
  else if wordAt b 0x18 ≠ 0#32 then some 0x18
  else if wordAt b 0x1C ≠ 0#32 then some 0x1C
  else none

/-- Sum of 1 / period as a fraction. -/
def rateSum : List Nat → Nat × Nat
  | [] => (0, 1)
  | p :: t =>
    let r := rateSum t
    let n := r.1 * p + r.2
    let m := r.2 * p
    let g := Nat.gcd n m
    (n / g, m / g)

/-- Periodic rates at 65 Hz beyond 1.5 million samples per second (R83). -/
def tooFast (ts : List Trend) : Bool :=
  let r := rateSum ((ts.filter trendPeriodic).map (·.period))
  decide (1500000 * r.2 < 65 * r.1)

/-- Bytes of the TREND region (R61) that remapped pages leave (R317). -/
def trendBytes (d : Dev) : Nat :=
  (usableMib - ((d.pe.plan.map regionMib).getD []).sum) * 1048576 - 4096 * d.integ.remaps.length

def dropTrendSubs (log : Nat) (d : Dev) : Dev :=
  let hits := d.pe.subs.filterMap fun p => match p.2 with
    | .sub s => if s.cls = 4 ∧ fld s.target 19 0 = log then some (p.1, s.point) else none
    | _ => none
  forEach hits (fun h d => dropSub h.1 h.2 d) d

def putTrend (log : Nat) (t : Trend) (d : Dev) : Dev :=
  { d with pe := { d.pe with trends := Tab.put d.pe.trends log t } }

/-- A log as defined. -/
def trendOfBuf (b : List Byte) : Trend :=
  let w := wordAt b 4
  { point := (wordAt b 0).toNat, cq := fld w 7 3, stopWhenFull := bit w 2, mode := fld w 1 0,
    period := (wordAt b 8).toNat, phase := (wordAt b 0xC).toNat, capacity := (wordAt b 0x10).toNat,
    notify := (wordAt b 0x14).toNat }

def trendSet (log : Nat) (b : List Byte) (d : Dev) : Done × Dev :=
  match trendFault b with
  | some o => (badBuf o, d)
  | none =>
    let id := (wordAt b 0).toNat
    match recOf d id with
    | none => (if 0x500000 ≤ id then badBuf 0 else fail stNotFound (wd id), d)
    | some r =>
      let t := trendOfBuf b
      let e := dropTrendSubs log d
      let all := (Tab.put d.pe.trends log t).map Prod.snd
      if tooFast all then (fail stNoCapacity, d)
      else if trendBytes d < 16 * (all.map (·.capacity)).sum then (fail stNoCapacity, d)
      else if trendCov t && decide (subsFree e = 0) then (fail stNoCapacity, d)
      else
        let d := putTrend log t e
        let d := if trendCov t then ((addSub 4 id (wd log) r d).map Prod.snd).getD d else d
        (okWith (wd t.capacity), d)

def trendDefine (c : HostCmd) (d : Dev) : Option Done × Dev :=
  let log := c.target.toNat
  if 1048576 ≤ log then (some (badField 8), d)
  else if shortBuf c 32 then (some (badField 0x28), d)
  else if wordAt c.buf 0 = 0x7FFFFF#32 then
    if (Tab.find d.pe.trends log).isNone then (some (fail stNotFound c.target), d)
    else
      let d := dropTrendSubs log d
      (some ok, { d with pe := { d.pe with trends := Tab.del d.pe.trends log } })
  else
    let x := trendSet log c.buf d
    (some x.1, x.2)

def sampleBytes (s : Sample) : List Byte :=
  wordsBytes [s.value, wd (at' 20 s.type + at' 16 s.quality + s.stamp.angle.toNat), s.stamp.cycle,
    wd (at' 16 s.merged + s.check.toNat)]

/-- Samples from number `first` on, counted as TOTAL counts, the overwritten ones skipped. -/
def samplesFrom (t : Trend) (first n : Nat) : List Sample :=
  let behind := (t.total + 4294967295 - first) % 4294967295
  let len := t.samples.length
  if behind < len then (t.samples.drop (len - 1 - behind)).take n
  else if behind < 2147483648 then t.samples.take n
  else []

def trendRead (c : HostCmd) (d : Dev) : Option Done × Dev :=
  let log := c.target.toNat
  if 1048576 ≤ log then (some (badField 8), d)
  else match Tab.find d.pe.trends log with
    | none => (some (fail stNotFound c.target), d)
    | some t =>
      if shortBuf c (16 * c.count.toNat) then (some (badField 0x28), d)
      else
        let ss := samplesFrom t c.p0.toNat c.count.toNat
        (some (okWith (wd ss.length) (wd t.total)), outBuf c (ss.flatMap sampleBytes) d)

/-! ## Events of the point engine -/

def dropHead (d : Dev) : Dev := refill { d with pe := { d.pe with queue := d.pe.queue.drop 1 } }

/-- Both pipelines in service compute the operation; `first` and `again` say that they agree at the first attempt and
at its repeat (R64). One alone is not compared (R65); without any the operation fails. On an empty queue a mismatch is
that of the operation which the next host command brings. -/
def pointOperation (first again : Bool) (d : Dev) : Dev :=
  match d.pe.queue with
  | [] => if first then d else { d with pe := { d.pe with upset := some again } }
  | op :: _ =>
    let commit := fun (d : Dev) => (perform op d).2
    let lost := countWriteFail op .checkFail
    if d.pe.testing then d
    else if !d.pe.p0 && !d.pe.p1 then settle (lost (dropHead d))
    else if !(d.pe.p0 && d.pe.p1) || first then settle (commit (dropHead d))
    else if again then settle (errorTest unitPipes (commit (dropHead d)))
    else settle (errorTest unitPipes (lost (dropHead d)))

def lonePipelineTest (d : Dev) : Dev :=
  if d.pe.p0 != d.pe.p1 then dispatchTest unitPipes { blankTest with scheduled := true } d else d

/-- A minimum-time lock reaches its deadline (R60). -/
def minTimeLockExpiry (id : Nat) (d : Dev) : Dev :=
  match recOf d id with
  | none => d
  | some r =>
    if !commandable r || !lockActive (prioOf d r) then d else settle (engineNow (engineOp id .lockEnd d) d)

/-- A write of the point waits in the input queue. -/
def writeWaits (d : Dev) (id : Nat) : Bool :=
  d.pe.queue.any fun x => x.id == id && match x.act with
    | .write _ _ _ _ => true
    | .relinquish _ => true
    | _ => false

/-- A STALE_TIMEOUT runs out: a write that has arrived, and be it at the same count, wins (R54, R78). -/
def staleTimeout (id : Nat) (d : Dev) : Dev :=
  match recOf d id with
  | none => d
  | some r =>
    match limitOf d (limitRef d r) with
    | some l =>
      if l.staleAfter = 0#32 ∨ recQ r = qStale ∨ writeWaits d id then d else settle (engineNow (engineOp id .stale d) d)
    | none => d

/-- The pending condition has held: the block changes state and is evaluated afresh (R77). While the engine takes no
operations the next fabric tick judges it. -/
def alarmDelayExpiry (id : Nat) (d : Dev) : Dev :=
  match recOf d id with
  | none => d
  | some r =>
    let ref := limitRef d r
    match limitOf d ref with
    | some l =>
      match l.pendTo with
      | some t =>
        if pipesServe d then settle (judgeLimit id (fun d => evalLimit id ref 4 (enterLimit id ref t d)) d) else d
      | none => d
    | none => d

def pendingChangeDelivery (t : Target) (d : Dev) : Dev :=
  match t with
  | .cq n => flushCq n.val d
  | .port p room => flushPort p.val room d

/-- A periodic log has an occurrence in cycle c (R81). -/
def trendDue (t : Trend) (c : Nat) : Bool :=
  trendPeriodic t && ((c : Int) - (t.phase : Int)) % ((max 1 t.period : Nat) : Int) == 0

/-- A missed sample: the next one is preceded by a GAP at the first missed occurrence (R84). -/
def missSample (log : Nat) (s : Stamp) (d : Dev) : Dev :=
  { d with pe := { d.pe with trends := Tab.upd d.pe.trends log fun t => { t with gap := some (t.gap.getD s) } } }

/-- A periodic sample, stamped c:0. A signature test delays the engine by less than a cycle, so the record is taken as at
angle 0; with no pipeline in service, or a core die that does not run, the sample is missed (R81, R84). -/
def trendPeriodicSample (log : Nat) (d : Dev) : Dev :=
  match Tab.find d.pe.trends log with
  | none => d
  | some t =>
    let s : Stamp := ⟨(now d).cycle, 0#16⟩
    if !trendDue t s.cycle.toNat then d
    else if !coreRuns d || (!d.pe.p0 && !d.pe.p1) then missSample log s d
    else
      let x := readRec t.point d
      match recOf x.2 t.point with
      | some r => settle (captureLog log 0 r s 0 x.2)
      | none => missSample log s d

/-- Occurrences of periodic logs in the `n` cycles from `c` on, which the cycle counter has jumped over, are missed (R26,
R84). -/
def missCycles (c : Word) (n : Nat) (d : Dev) : Dev :=
  forEach d.pe.trends (fun p d =>
    let k := ((p.2.phase : Int) - (c.toNat : Int)) % ((max 1 p.2.period : Nat) : Int)
    if trendPeriodic p.2 && decide (k < n) then missSample p.1 ⟨c + wd k.toNat, 0#16⟩ d else d) d

/-! ## Commands -/

def execPointOperation (first again : Bool) (s : State) := run (pointOperation first again) s
def execLonePipelineTest (s : State) := run lonePipelineTest s
def execMinTimeLockExpiry (id : Nat) (s : State) := run (minTimeLockExpiry id) s
def execStaleTimeout (id : Nat) (s : State) := run (staleTimeout id) s
def execAlarmDelayExpiry (id : Nat) (s : State) := run (alarmDelayExpiry id) s
def execPendingChangeDelivery (target : Target) (s : State) := run (pendingChangeDelivery target) s
def execTrendPeriodicSample (log : Nat) (s : State) := run (trendPeriodicSample log) s
def execPointDefine (c : HostCmd) (s : State) := run (hostExec 0x0101 pointDefine c) s
def execPointRead (c : HostCmd) (s : State) := run (hostExec 0x0102 pointRead c) s
def execPointWrite (c : HostCmd) (s : State) := run (hostExec 0x0103 pointWrite c) s
def execPointRelinquish (c : HostCmd) (s : State) := run (hostExec 0x0104 pointRelinquish c) s
def execPointReadMany (c : HostCmd) (s : State) := run (hostExec 0x0105 pointReadMany c) s
def execPointSubscribe (c : HostCmd) (s : State) := run (hostExec 0x0106 pointSubscribe c) s
def execPointUnsubscribe (c : HostCmd) (s : State) := run (hostExec 0x0107 pointUnsubscribe c) s
def execPointLimits (c : HostCmd) (s : State) := run (hostExec 0x0108 pointLimits c) s
def execAoSet (c : HostCmd) (s : State) := run (hostExec 0x0506 aoSet c) s
def execTgSet (c : HostCmd) (s : State) := run (hostExec 0x0507 tgSet c) s
def execFanSet (c : HostCmd) (s : State) := run (hostExec 0x0508 fanSet c) s
def execCoilCmd (c : HostCmd) (s : State) := run (hostExec 0x0504 coilCmd c) s
def execTrendDefine (c : HostCmd) (s : State) := run (hostExec 0x0A01 trendDefine c) s
def execTrendRead (c : HostCmd) (s : State) := run (hostExec 0x0A02 trendRead c) s

end Sys2Proof.Machine
end

