-- ==== Sys2Proof/Machine/Kwela.lean ====
section
/-! DEFINITION. Kwela: the field protocol (R266–R281), and cycle alignment from a beacon (R25). -/
namespace Sys2Proof.Machine

/-! ## Segments, addresses (R266, R270) -/

def kwOpen (d : Dev) (t : Nat) : Bool := (kwPort d t).isSome

/-- The core that serves the segment works; while it is tested or none is left, frames wait (R263). -/
def kwServed (d : Dev) (t : Nat) : Bool := ((kwPort d t).map fun p => !(portOf d p).held).getD false

def kwCoreUnit (d : Dev) (t : Nat) : Nat := unitCore (portOf d ((kwPort d t).getD 0)).core

def myAddr (d : Dev) : Nat := if d.pair.upper then 0xFFF2 else 0xFFF1
def twinAddr (d : Dev) : Nat := if d.pair.upper then 0xFFF1 else 0xFFF2

def trunkOf (d : Dev) (t : Nat) : Trunk := Tab.get {} d.kw.trunks t
def setTrunk (t : Nat) (x : Trunk) (d : Dev) : Dev :=
  { d with kw := { d.kw with trunks := Tab.set {} d.kw.trunks t x } }
def modTrunk (t : Nat) (f : Trunk → Trunk) (d : Dev) : Dev := setTrunk t (f (trunkOf d t)) d
def devAt (d : Dev) (a : Nat) : Option KDevice := Tab.find d.kw.devices a
def modDevice (a : Nat) (f : KDevice → KDevice) (d : Dev) : Dev :=
  { d with kw := { d.kw with devices := Tab.upd d.kw.devices a f } }

/-- The entered device at an address of a trunk. -/
def devOn (d : Dev) (t a : Nat) : Option KDevice :=
  match devAt d a with
  | some x => if x.trunk = t then some x else none
  | none => none

/-- Bit rate of a segment: the trunk's own, 10 Mbit/s on T1S. -/
def kwRate (d : Dev) (t : Nat) : Nat :=
  match kwPort d t with
  | some p => if p < 8 then 10000000 else fld (wordAt (portOf d p).image 4) 23 0
  | none => 1000000

/-- `n` characters of 10 bit times in ac at the present rate (R22). -/
def charsAc (d : Dev) (t n : Nat) : Nat :=
  nearest (n * 10 * 65536 * F32.magNum (coreRate d)) (max 1 (kwRate d t) * F32.magDen (coreRate d))

/-- ACK_WAIT = 150 µs + 32 character times (R280). -/
def ackWait (d : Dev) (t : Nat) : Nat := acOfUs d 150 + charsAc d t 32

/-! ## Frames (R268, R269) -/

def tHello : Nat := 1
def tBeacon : Nat := 2
def tSample : Nat := 3
def tValue : Nat := 4
def tCommand : Nat := 5
def tAck : Nat := 6
def tDiag : Nat := 7

/-- A received frame. -/
structure KIn where
  ver : Nat
  type : Nat
  len : Nat
  ackReq : Bool
  retry : Bool
  src : Nat
  dst : Nat
  claim : Half
  stamp : Option Stamp
  seq : Nat
  payload : List Byte
  deriving DecidableEq, Repr

/-- The frame of a list of bytes; none where R269 discards it whatever the sender. -/
def parseK (b : List Byte) : Option KIn :=
  let ver := byteAt b 2 / 16
  let type := byteAt b 2 % 16
  let f := halfAt b 3
  let len := f % 2048
  let head := if ver = 2 then 0x13 else 0xB
  if byteAt b 0 ≠ 0x4B ∨ byteAt b 1 ≠ 0x57 then none
  else if ver ≠ 1 ∧ ver ≠ 2 then none
  else if type = 0 ∨ 8 ≤ type then none
  else if 1024 < len ∨ 16384 ≤ f then none
  else if b.length ≠ head + len + 4 then none
  else if crc32c (b.take (head + len)) ≠ wordAt b (head + len) then none
  else some
    { ver := ver, type := type, len := len, ackReq := f / 2048 % 2 == 1, retry := f / 4096 % 2 == 1,
      src := halfAt b 5, dst := halfAt b 7, claim := if ver = 2 then hw (halfAt b 9) else 0#16
      stamp := if ver = 2 then some ⟨wordAt b 0xB, hw (halfAt b 0xF)⟩ else none
      seq := halfAt b (if ver = 2 then 0x11 else 9), payload := (b.drop head).take len }

/-- A frame of this controller as its bytes. -/
def frameBytes (src : Nat) (stamp : Stamp) (claim : Half) (f : KFrame) : List Byte :=
  let len := f.payload.length
  let head := [0x4B#8, 0x57#8, BitVec.ofNat 8 (f.ver * 16 + f.type)] ++
    bytesLE (len + b2n f.ackReq * 2048 + b2n f.retry * 4096) 2 ++ bytesLE src 2 ++ bytesLE f.dst 2 ++
    (if f.ver = 2 then bytesLE claim.toNat 2 ++ wordBytes stamp.cycle ++ bytesLE stamp.angle.toNat 2 else []) ++
    bytesLE f.seq 2 ++ f.payload
  head ++ wordBytes (crc32c head)

/-! ## Queuing -/

def rankAnswer : Nat := 0
def rankBeacon : Nat := 1
def rankSample : Nat := 2
def rankCommand : Nat := 3
def rankHello : Nat := 4

def queueK (t : Nat) (f : KFrame) (d : Dev) : Dev := modTrunk t (fun x => { x with queue := x.queue ++ [f] }) d

/-- Next sequence number towards a device, or of broadcasts on a trunk. -/
def nextSeq (t dst : Nat) (d : Dev) : Nat × Dev :=
  match devAt d dst with
  | some v => (v.txSeq, modDevice dst (fun v => { v with txSeq := (v.txSeq + 1) % 65536 }) d)
  | none => ((trunkOf d t).bcastSeq, modTrunk t (fun x => { x with bcastSeq := (x.bcastSeq + 1) % 65536 }) d)

def blankFrame : KFrame :=
  { rank := 0, dst := 0xFFFF, type := 0, ver := 2, ackReq := false, seq := 0, retry := false, payload := [],
    claim := 0#16, stamp := none, points := [] }

/-- A frame of this controller's own numbering. -/
def sendK (t : Nat) (f : KFrame) (d : Dev) : Dev :=
  let s := nextSeq t f.dst d
  queueK t { f with seq := s.1 } s.2

def queueBeacon (t : Nat) (d : Dev) : Dev :=
  if (trunkOf d t).queue.any fun f => f.type == tBeacon then d
  else sendK t { blankFrame with rank := rankBeacon, type := tBeacon } d

/-- The extra BEACON on every open segment (R273). -/
def beaconAll (d : Dev) : Dev := forRange 16 (fun t d => if kwOpen d t then queueBeacon t d else d) d

/-- HELLO of this controller (R271); its class, model and serial number are not stated: free values (log entry 7). -/
def helloPayload (slot : Nat) : List Byte :=
  [3#8] ++ bytesLE (Config.free 0x30000000).toNat 3 ++ (Config.serial ++ [0, 0, 0, 0]).take 4 ++
    [0#8, BitVec.ofNat 8 slot]

def queueHello (t dst slot : Nat) (d : Dev) : Dev :=
  sendK t { blankFrame with rank := rankHello, type := tHello, ver := 1, dst := dst, payload := helloPayload slot } d

/-- ACK of a frame; it leaves once every record of the frame has been stored or refused. -/
def queueAck (t : Nat) (f : KIn) (d : Dev) : Dev :=
  queueK t { blankFrame with rank := rankAnswer, type := tAck, ver := f.ver, dst := f.src, seq := f.seq } d

/-- DIAG in answer to a frame. -/
def queueDiag (t code point : Nat) (f : KIn) (d : Dev) : Dev :=
  queueK t { blankFrame with
    rank := rankAnswer, type := tDiag, ver := f.ver, dst := f.src, seq := f.seq
    payload := [BitVec.ofNat 8 code, 0#8] ++ bytesLE point 4 ++ [0, 0] } d

/-- A broadcast SAMPLE_AT with its target (R275). -/
def queueSampleAt (t : Nat) (target : Stamp) (d : Dev) : Dev :=
  if kwOpen d t then
    sendK t { blankFrame with
      rank := rankSample, type := tSample
      payload := wordBytes target.cycle ++ bytesLE target.angle.toNat 2 } d
  else d

/-! ## Sending (R267) -/

/-- Live claims as a BEACON carries them: lower unit, higher unit. -/
def beaconPayload (d : Dev) : List Byte :=
  bytesLE (liveClaim d .a).toNat 2 ++ bytesLE (liveClaim d .b).toNat 2 ++
    [BitVec.ofNat 8 (b2n d.pair.enabled + 2 * b2n (d.pair.role == 3))]

def higherClaim (d : Dev) : Half :=
  if (liveClaim d .a).toNat < (liveClaim d .b).toNat then liveClaim d .b else liveClaim d .a

/-- Records of a device still in the point engine's queue, or behind it (R66). -/
def recordsWait (d : Dev) (t a : Nat) : Bool :=
  (d.pe.queue ++ d.pe.held).any fun o => o.source == srcWord 7 (t * 65536 + a)

def outstanding (d : Dev) (a : Nat) : Bool := ((devAt d a).map fun v => v.flight.isSome).getD false

/-- The frame may leave now: an ACK once its records are done, a frame to be acknowledged once the last one is, a HELLO
while non-essential transmit is not quenched (R265; a DIAG answers a received frame, and is a response). -/
def mayLeave (d : Dev) (t : Nat) (f : KFrame) : Bool :=
  if f.type = tHello && (portOf d ((kwPort d t).getD 0)).qTx then false
  else if f.type = tAck then !recordsWait d t f.dst
  else !f.ackReq || f.retry || !outstanding d f.dst

/-- The next frame in the queue order. -/
def nextFrame (d : Dev) (t : Nat) : Option KFrame :=
  if !kwServed d t then none else
  let q := (trunkOf d t).queue.filter (mayLeave d t)
  (List.range 5).findSome? fun r => q.find? fun f => f.rank == r

/-- A frame that asks for an answer starts its retry timer at its last bit (R280). -/
def armFlight (t : Nat) (f : KFrame) (d : Dev) : Dev :=
  if !f.ackReq then d
  else
    let len := (if f.ver = 2 then 23 else 15) + f.payload.length
    let due := stPlus (now d) (charsAc d t len + ackWait d t)
    modDevice f.dst (fun v => { v with
      flight := match v.flight with
        | some g => if f.retry then some { g with due := some due } else some { frame := f, resends := 0, due := some due }
        | none => some { frame := f, resends := 0, due := some due } }) d

/-- What a segment puts on its medium: the frame itself on RS-485, an Ethernet frame of EtherType 0x88B5 on T1S (R255). -/
def sendKwela (t p : Nat) (b : List Byte) (d : Dev) : Dev :=
  if p < 8 then emit (.frame p (tagged d p (bytesLE (Config.macPair p).toNat 12 ++ [0x88, 0xB5] ++ b))) d
  else emit (.kwela t b) d

def kwelaTransmit (t : Nat) (collision : Bool) (d : Dev) : Dev :=
  match kwPort d t, nextFrame d t with
  | some p, some f =>
    if collision then
      emit (.collision t) (modTrunk t (fun x => { x with
        collision := up16 x.collision
        scan := x.scan.map fun s => { s with collisions := s.collisions + 1 } }) d)
    else
      let f' := if f.type = tBeacon then { f with payload := beaconPayload d } else f
      let claim := if f.type = tCommand then f.claim else higherClaim d
      let stamp := f.stamp.getD (now d)
      let d' := modTrunk t (fun x => { x with queue := x.queue.erase f }) d
      armFlight t f (sendKwela t p (frameBytes (myAddr d) stamp claim f') d')
  | _, _ => d

def kwelaBeaconTimer (d : Dev) : Dev := beaconAll d

/-! ## Cycle alignment (R25) -/

/-- A beacon from a source that TB_CTRL enables (bit 6 Kwela, bit 7 Rope): the whole number of cycles by which it is ahead
waits for the next boundary. Of several before one boundary the largest n counts, and the source of the last one ahead is
logged (DESIGN CHOICE, log entry 161). While the die link is down no beacon reaches the timebase. -/
def alignCycle (source : Nat) (received at'' : Stamp) (transit : Nat) (d : Dev) : Dev :=
  if !bit d.tb.ctrl (6 + source) || d.link.coreLost then d
  else
    let df := stampDiff received at'' + transit
    let n := (2 * df + 65536) / 131072
    let tb := { d.tb with aligned := true }
    if 0 < n then { d with tb := { tb with jump := max tb.jump n.toNat, jumpSource := source } }
    else { d with tb := tb }

/-! ## Receiving -/

def discard (t : Nat) (d : Dev) : Dev := modTrunk t (fun x => { x with crc := up16 x.crc }) d

/-- The version agreed with a sender, if any. -/
def agreedVer (d : Dev) (t a : Nat) : Option Nat := (devOn d t a).map (·.ver)

/-- The refresh of one user output still HELD. -/
def refreshDelivery (id : Nat) (d : Dev) : Dev :=
  { d with pe := { d.pe with deliveries := d.pe.deliveries ++
      [{ id := id, value := 0#32, quality := 0, check := 0#16, stamp := now d, claim := d.belay.owner, refresh := true }] } }

/-- A device leaves SILENT at any valid frame; an output that has waited HELD for it is refreshed. -/
def leaveSilent (t a : Nat) (d : Dev) : Dev :=
  match devOn d t a with
  | some v =>
    if v.silent then
      forEach (v.listings.filter fun l => l.2 && stageState d (1000 + l.1) == 1) (fun l => refreshDelivery l.1)
        (modDevice a (fun v => { v with silent := false }) d)
    else d
  | none => d

/-- A frame of a type addressed to this controller, or none and what its discard leaves: R269, and a type other than
the one that arrived. -/
def receiveK (t type : Nat) (b : List Byte) (d : Dev) : Option KIn × Dev :=
  if !kwServed d t then (none, d)
  else
  let d := takeCore ((kwPort d t).getD 0) [.kwela] d
  match parseK b with
    | none => (none, discard t d)
    | some f =>
      let verOk := if f.type = tHello then f.ver == 1
        else if f.type = tBeacon then f.ver == 2
        else agreedVer d t f.src == some f.ver
      if !verOk || f.type != type then (none, discard t d)
      else if f.dst ≠ myAddr d ∧ f.dst ≠ 0xFFFF then (none, d)
      else
        (some f, leaveSilent t f.src d)

/-- A RETRY frame whose SEQ equals the last one accepted from its sender (R280). -/
def repeated (d : Dev) (f : KIn) : Bool :=
  f.retry && ((devAt d f.src).map fun v => v.lastSeq == some f.seq).getD false

def acceptSeq (f : KIn) (d : Dev) : Dev := modDevice f.src (fun v => { v with lastSeq := some f.seq }) d

/-! ## HELLO (R271, R272) -/

/-- Listing k: point and OUTPUT. -/
def listing (p : List Byte) (k : Nat) : Nat × Bool :=
  let w := wordAt p (10 + 4 * k)
  (fld w 22 0, bit w 23)

/-- The point may be listed so: defined, of a KIND the listing allows, listed by no entered device. -/
def mayList (d : Dev) (l : Nat × Bool) : Bool :=
  !(d.kw.devices.any fun v => v.2.listings.any fun m => m.1 == l.1) &&
  (match recOf d l.1 with
   | some r => if l.2 then commandable r else kindInput r.kind
   | none => false)

/-- Keep the listings that stand; the others are counted. -/
def keepListings (d : Dev) : List (Nat × Bool) → List (Nat × Bool) → Nat → List (Nat × Bool) × Nat
  | [], acc, n => (acc.reverse, n)
  | l :: t, acc, n =>
    if mayList d l && !(acc.any fun m => m.1 == l.1) then keepListings d t (l :: acc) n
    else keepListings d t acc (n + 1)

def helloVer (p : List Byte) : Option Nat :=
  let v := byteAt p 0
  if v / 2 % 2 = 1 then some 2 else if v % 2 = 1 then some 1 else none

/-- A HELLO's entry replaces the one at its address; the numbering of frames towards it goes on (R280). -/
def enterDevice (t : Nat) (f : KIn) (ver : Nat) (before : Dev) : Dev :=
  let p := f.payload
  let d := { before with kw := { before.kw with devices := Tab.del before.kw.devices f.src } }
  let ls := keepListings d ((List.range (byteAt p 8)).map (listing p)) [] 0
  let o := (devAt before f.src).getD { trunk := t, ver := ver, cls := 0, model := 0, serial := 0, listings := [] }
  let v : KDevice := { o with
    trunk := t, ver := ver, cls := byteAt p 1, model := halfAt p 2, serial := (wordAt p 4).toNat, listings := ls.1 }
  modTrunk t (fun x => { x with conflict := satAdd 65535 x.conflict ls.2 })
    { d with kw := { d.kw with devices := Tab.put d.kw.devices f.src v } }

/-- A HELLO is entered, or why it is not: 1 held on another trunk, 2 counted only. -/
def helloVerdict (t : Nat) (f : KIn) (d : Dev) : Nat :=
  if f.src = 0 ∨ 0xFFEF < f.src then 2
  else match devAt d f.src with
    | some v => if v.trunk ≠ t then 1 else if (helloVer f.payload).isNone then 2 else 0
    | none => if (helloVer f.payload).isNone ∨ 4096 ≤ d.kw.devices.length then 2 else 0

/-- The 16-byte entry of a scan (R281). -/
def scanEntry (f : KIn) (entered : Bool) : List Byte :=
  let p := f.payload
  bytesLE f.src 2 ++ [BitVec.ofNat 8 ((helloVer p).getD 0)] ++ [p.getD 1 0] ++ bytesLE (halfAt p 2) 2 ++
    [p.getD 8 0, BitVec.ofNat 8 (b2n entered)] ++ wordBytes (wordAt p 4) ++ [0, 0, 0, 0]

/-- A HELLO answers the scan slot that its address, or the serial number of a device without one, falls in (R281). -/
def answersSlot (f : KIn) (slot : Nat) : Bool :=
  (if f.src = 0 then (wordAt f.payload 4).toNat else f.src) % 256 == slot % 256

/-- An answer that is complete by the end of its slot (R35, R281). -/
def inSlot (f : KIn) (stamp : Stamp) (s : KScan) : Bool :=
  decide (s.slot < 256) && answersSlot f s.slot && !later stamp s.due ||
    decide (0 < s.slot) && answersSlot f (s.slot - 1) && !later stamp s.before

def noteScan (t : Nat) (f : KIn) (stamp : Stamp) (entered : Bool) (d : Dev) : Dev :=
  modTrunk t (fun x => { x with
    scan := x.scan.map fun s => if inSlot f stamp s then { s with found := s.found ++ [scanEntry f entered] } else s }) d

/-- A payload that R271 does not allow; its reserved bits are those of R269. -/
def badHello (p : List Byte) : Bool :=
  decide (p.length < 10) || decide (200 < byteAt p 8) || decide (p.length ≠ 10 + 4 * byteAt p 8) ||
    (List.range (byteAt p 8)).any fun k => decide (byteAt p (13 + 4 * k) ≠ 0)

def hello (t : Nat) (b : List Byte) (stamp : Stamp) (d : Dev) : Dev :=
  let x := receiveK t tHello b d
  match x.1 with
  | none => x.2
  | some f =>
    if badHello f.payload then discard t x.2
    else if f.src = myAddr d ∨ f.src = twinAddr d then x.2
    else
      let v := helloVerdict t f x.2
      let d := if v = 0 then enterDevice t f ((helloVer f.payload).getD 1) x.2
        else modTrunk t (fun x => { x with refused := up16 x.refused }) x.2
      let d := noteScan t f stamp (v == 0) d
      let d := if v = 1 then queueDiag t 4 0x7FFFFF f d else d
      let d := queueHello t f.src 0 d
      settle (if f.ackReq && v != 1 then queueAck t f d else d)

/-! ## VALUE (R276) -/

/-- A record of a VALUE: point word, value, quality, kind, check. -/
def kRecord (p : List Byte) (k : Nat) : Nat × Word × Nat × Half :=
  ((wordAt p (12 * k)).toNat, wordAt p (12 * k + 4), byteAt p (12 * k + 8), hw (halfAt p (12 * k + 10)))

/-- A record's KIND is part of its check: one that differs from the point's makes the check fail. -/
def recordCheck (d : Dev) (p : List Byte) (k : Nat) : Half :=
  let r := kRecord p k
  if ((recOf d r.1).map (·.kind)) = some (byteAt p (12 * k + 9)) then r.2.2.2 else ~~~r.2.2.2

def listsInput (v : KDevice) (id : Nat) : Bool := v.listings.any fun l => l.1 == id && !l.2

def passRecord (t : Nat) (f : KIn) (s : Stamp) (k : Nat) (d : Dev) : Dev :=
  let r := kRecord f.payload k
  enqueue { id := r.1, act := .write r.2.1 r.2.2.1 (some (recordCheck d f.payload k)) 0, stamp := s,
            source := srcWord 7 (t * 65536 + f.src), writer := .field } d

def value (t : Nat) (b : List Byte) (stamp : Stamp) (d : Dev) : Dev :=
  let x := receiveK t tValue b d
  match x.1 with
  | none => x.2
  | some f =>
    match devOn x.2 t f.src with
    | none => x.2
    | some v =>
      let n := f.len / 12
      let ids := List.range n
      if f.len % 12 ≠ 0 ∨ n = 0 ∨ 85 < n ∨ ids.any (fun k => decide (8388608 ≤ (kRecord f.payload k).1)) then discard t x.2
      else
        let bad := ids.filter fun k => !listsInput v (kRecord f.payload k).1
        let good := ids.filter fun k => listsInput v (kRecord f.payload k).1
        let d := if repeated x.2 f then x.2
          else modTrunk t (fun x => { x with refused := satAdd 65535 x.refused bad.length })
            (forEach good (passRecord t f (f.stamp.getD stamp)) (acceptSeq f x.2))
        match bad with
        | k :: _ => queueDiag t 3 (kRecord f.payload k).1 f d
        | [] => if f.ackReq then queueAck t f d else d

/-! ## Answers (R278, R280) -/

/-- The flight a device's answer ends, when the answer is in time. -/
def answered (t : Nat) (f : KIn) (stamp : Stamp) (d : Dev) : Option KFlight :=
  match devOn d t f.src with
  | some v =>
    match v.flight with
    | some g =>
      let inTime := (g.due.map fun due => !later stamp due).getD true
      if g.frame.seq == f.seq && inTime then some g else none
    | none => none
  | none => none

def endFlight (a : Nat) (d : Dev) : Dev := modDevice a (fun v => { v with flight := none }) d

/-- A HELD output leaves HELD when its device acknowledges the refresh (R293): its kept quality is restored. -/
def leaveHeld (id : Nat) (d : Dev) : Dev :=
  if stageState d (1000 + id) = 1 then
    let d := (refreshRecord { id := id, value := 0#32, quality := 0, check := 0#16, stamp := now d, claim := 0#16 } d).2
    gateSettle (setStage (1000 + id) 0 d)
  else d

def ack (t : Nat) (b : List Byte) (stamp : Stamp) (d : Dev) : Dev :=
  let x := receiveK t tAck b d
  match x.1 with
  | none => x.2
  | some f =>
    match answered t f stamp x.2 with
    | some g => settle (forEach g.frame.points leaveHeld (endFlight f.src x.2))
    | none => x.2

/-- Send a frame again as a retry: the same SEQ, RETRY set; after three the device enters SILENT. -/
def resend (t a : Nat) (g : KFlight) (d : Dev) : Dev :=
  if g.resends < 3 then
    let f := { g.frame with retry := true, claim := if g.frame.type = tCommand then d.belay.owner else g.frame.claim }
    let d := modDevice a (fun v => { v with flight := some { g with frame := f, resends := g.resends + 1, due := none } }) d
    queueK t f (modTrunk t (fun x => { x with retry := up16 x.retry }) d)
  else
    modTrunk t (fun x => { x with
        silents := up16 x.silents, queue := x.queue.filter fun f => f.dst != a || f.type == tHello })
      (modDevice a (fun v => { v with silent := true, flight := none }) d)

def diag (t : Nat) (b : List Byte) (stamp : Stamp) (d : Dev) : Dev :=
  let x := receiveK t tDiag b d
  match x.1 with
  | none => x.2
  | some f =>
    if f.len ≠ 8 ∨ byteAt f.payload 1 ≠ 0 ∨ byteAt f.payload 5 ≠ 0 ∨ 128 ≤ byteAt f.payload 4 then discard t x.2
    else
      let g := answered t f stamp x.2
      let code := byteAt f.payload 0
      let again := repeated x.2 f
      let d := if again then x.2
        else modTrunk t (fun x => { x with diag := up16 x.diag }) (if g.isSome then x.2 else acceptSeq f x.2)
      let d := if f.ackReq then queueAck t f d else d
      let d := if code = 1 && !again then errorTest (kwCoreUnit d t) d else d
      match g with
      | none => d
      | some g =>
        if code = 2 ∧ g.frame.type = tCommand ∧ g.resends < 3 then resend t f.src g (queueBeacon t d)
        else endFlight f.src d

def ackWaitExpiry (t a : Nat) (d : Dev) : Dev :=
  match devOn d t a with
  | some v =>
    match v.flight with
    | some g => if g.due.isSome then resend t a g d else d
    | none => d
  | none => d

def silentHello (t a : Nat) (d : Dev) : Dev :=
  match devOn d t a with
  | some v => if v.silent then queueHello t a 0 d else d
  | none => d

/-! ## COMMAND (R277) -/

/-- The delivered values of a device's outputs, past the gate. -/
def gateOutputs (v : KDevice) (d : Dev) : Dev :=
  forEach (v.listings.filter fun l => l.2) (fun l d => (drainPoint l.1 none d).2) d

def kRecordBytes (d : Dev) (x : Delivery) : List Byte :=
  wordBytes (wd x.id) ++ wordBytes x.value ++
    [BitVec.ofNat 8 x.quality, BitVec.ofNat 8 (((recOf d x.id).map (·.kind)).getD 0)] ++ bytesLE x.check.toNat 2

def latestStamp (s : Stamp) (xs : List Delivery) : Stamp := xs.foldl (fun s x => if later x.stamp s then x.stamp else s) s

/-- The last value delivered of each point. -/
def lastPerPoint (xs : List Delivery) : List Delivery :=
  xs.foldl (fun acc x => (acc.filter fun y => y.id != x.id) ++ [x]) []

/-- One COMMAND of at most 85 records (R268) for the values of one device delivered in a tick, under the claim of the last
of them. -/
def sendCommand (t a : Nat) (v : KDevice) (xs : List Delivery) (d : Dev) : Dev :=
  match xs with
  | [] => d
  | x :: _ =>
    sendK t { blankFrame with
      rank := rankCommand, type := tCommand, ver := v.ver, dst := a, ackReq := true
      payload := xs.flatMap (kRecordBytes d), claim := (xs.getLastD x).claim, stamp := some (latestStamp x.stamp xs)
      points := xs.map (·.id) } d

def command (t a : Nat) (d : Dev) : Dev :=
  match kwPort d t, devOn d t a with
  | some _, some v =>
    let d := gateOutputs v d
    let mine := fun (x : Delivery) => v.listings.any fun l => l.1 == x.id && l.2
    let xs := lastPerPoint (d.kw.pendingOut.filter mine)
    let d := { d with kw := { d.kw with pendingOut := d.kw.pendingOut.filter fun x => !mine x } }
    if v.silent then d
    else settle (sendCommand t a v (xs.drop 170) (sendCommand t a v ((xs.drop 85).take 85) (sendCommand t a v (xs.take 85) d)))
  | _, _ => d

/-! ## Scans (R281) -/

def scanSlotEnd (t : Nat) (overrun : Bool) (d : Dev) : Dev :=
  match (trunkOf d t).scan with
  | none => d
  | some s =>
    if 256 ≤ s.slot ∨ (Tab.find d.lop.slots s.op).map (·.st) = some 3 then d
    else
      let s := { s with
        slot := s.slot + 1, overruns := s.overruns + b2n overrun, before := s.due
        due := stPlus (if later (now d) s.due then now d else s.due) (acOfUs d 75000) }
      let d := modTrunk t (fun x => { x with scan := some s }) d
      if s.slot < 256 then queueHello t 0xFFFF s.slot d else d

/-! ## Commands -/

def execKwelaBeaconTimer (s : State) := run kwelaBeaconTimer s
def execKwelaTransmit (trunk : Fin 16) (collision : Bool) (s : State) := run (kwelaTransmit trunk.val collision) s
def execCommand (trunk : Fin 16) (addr : Nat) (s : State) := run (command trunk.val addr) s
def execSilentHello (trunk : Fin 16) (addr : Nat) (s : State) := run (silentHello trunk.val addr) s

end Sys2Proof.Machine
end

