-- ==== Sys2Proof/Machine/Belay.lean ====
section
/-! DEFINITION. Belay: claims and arbitration, switch-over and full refresh, pair mode (R282–R306). -/
namespace Sys2Proof.Machine

/-! ## Register views -/

def stageList : List Nat := List.range 88 ++ [999]

/-- BELAY_STATUS.STATE over all stages. -/
def belayState (d : Dev) : Nat :=
  if stageList.any (fun k => stageState d k == 1) || (userOutputs d).any (fun id => stageState d (1000 + id) == 1) then 1
  else if stageList.any fun k => stageState d k != 0 then 2
  else 0

/-- A witness beacon of the twin has come within the last 1 s (R302). -/
def witnessOk (d : Dev) : Bool :=
  match d.pair.witnessDue with
  | some s => later s (now d)
  | none => false

def belayStatus (d : Dev) : Word :=
  wd (at' 13 (b2n d.pair.lagging) + at' 12 (b2n (witnessOk d)) + at' 11 (b2n d.pair.linkUp) + at' 8 d.pair.role +
    at' 4 d.belay.ownerUnit + at' 3 (b2n d.belay.b.live) + at' 2 (b2n d.belay.a.live) + belayState d)

/-- BELAY_CLAIMS. -/
def belayClaims (d : Dev) : Word := wd ((liveClaim d .b).toNat * 65536 + (liveClaim d .a).toNat)

def twinClaims (d : Dev) : Word := wd (d.pair.twinHigh.toNat * 65536 + d.pair.twinLow.toNat)

/-- Claims as HEALTH now makes them, withdrawn ones 0. -/
def claimsNow (d : Dev) : Word :=
  let c := fun (x : Cluster) => if (track d x).live then (fullClaim d x).toNat else 0
  wd (c .b * 65536 + c .a)

def setFlag (n : Nat) (d : Dev) : Dev := { d with belay := { d.belay with flags := setBit d.belay.flags n true } }

/-- The events logged with BELAY_STATUS and BELAY_FLAGS (codes 0x013–0x017). -/
def logBelay (code : Nat) (d : Dev) : Dev := logE sevWarning code (belayStatus d) d.belay.flags d

/-! ## HELD (R291, R292) -/

/-- The point of a stage below 88. -/
def stagePoint (k : Nat) : Nat :=
  if k < 48 then predefBase + coilPoint k 0 else if k < 64 then aoId (k - 48) else if k < 80 then tgId (k - 64)
  else fanId (k - 80)

/-- A point shows HELD, its quality kept. -/
def showHeldNow (id : Nat) (d : Dev) : Dev :=
  match recOf d id with
  | none => d
  | some r =>
    if (Tab.find d.pe.kept id).isSome then d
    else if !checkOk id r then
      let d := failRecord id r d
      { d with pe := { d.pe with kept := Tab.put d.pe.kept id qFault } }
    else
      let d := { d with pe := { d.pe with kept := Tab.put d.pe.kept id (recQ r) } }
      afterStore id (putRec id r (withCheck id { setQ r qHeld with source := srcEngine }) d)

/-- Every stage and gate with an owner enters HELD. -/
def holdStages (d : Dev) : Dev :=
  let d := forEach (List.range 88) (fun k d =>
    if stageState d k ≤ 1 then showHeldNow (stagePoint k) (setStage k 1 d) else d) d
  if stageState d 999 ≤ 1 then forEach (userOutputs d) showHeldNow (setStage 999 1 d) else d

/-! ## Full refresh (R293) -/

/-- User outputs in port order. -/
def outputsByPort (d : Dev) : List Nat :=
  ((List.range 24).flatMap fun p =>
    (d.kw.devices.flatMap fun v => if kwPort d v.2.trunk = some p then (v.2.listings.filter fun l => l.2).map Prod.fst else []) ++
    ((d.ports.map.filter fun e => mapRole e.2 == 4 && mapPort e.2 == p).map fun e => mapPoint e.2)).eraseDups

/-- The refresh of a MODBUS_WRITE whose point has a stage of its own or takes no commands: its quality is restored and the
point is sent (R259, R293). -/
def refreshBound (id : Nat) (d : Dev) : Dev :=
  let d := if (stageOf d id).isNone then (refreshRecord
      { id := id, value := 0#32, quality := 0, check := 0#16, stamp := now d, claim := d.belay.owner } d).2 else d
  forEach (modbusOuts d id) modbusSend (setStage (1000 + id) 0 d)

/-- The refresh of every stage that is not NORMAL: coils, AO, TG, fans, then the gates port by port. The field die's
stages can be refreshed only while the die link is up (R11). -/
def fullRefresh (d : Dev) : Dev :=
  let d := if linkOk d then
      forEach (List.range 88) (fun k d => if stageState d k ≠ 0 then refreshDelivery (stagePoint k) d else d) d
    else d
  let d := forEach (outputsByPort d) (fun id d => 
    if stageState d (1000 + id) = 0 then d
    else if stageOf d id = some (1000 + id) then refreshDelivery id d
    else refreshBound id d) d
  gateSettle d

/-! ## Fail-safe (R9, R289) -/

/-- Every output of the field die drives its fail-safe value. -/
def failSafeField (st : Nat) (d : Dev) : Dev :=
  let d := forRange 48 (fun k d => withdraw k stCancelled 0#32 d) d
  let d := forRange 48 (fun k d => failSafeChan k (setStage k st d)) d
  let d := forRange 16 (fun k d => failSafeAo k (setStage (48 + k) st d)) d
  let d := forRange 16 (fun k d => failSafeTg k (setStage (64 + k) st d)) d
  forRange 8 (fun k d => failSafeFan k (setStage (80 + k) st d)) d

def enterNoOwner (d : Dev) : Dev :=
  let d := { d with belay := { d.belay with owner := 0#16, ownerUnit := 0 } }
  let d := failSafeField (if d.link.fieldLost then 3 else 2) d
  beaconAll (logBelay 0x013 (setFlag 1 (setStage 999 2 d)))

/-! ## Arbitration (R286–R291) -/

/-- The claim of a unit that does not own, for the comparison: a fall counts at once (R283). -/
def rivalClaim (d : Dev) (c : Cluster) : Nat :=
  if (track d c).live then min (track d c).claim.toNat (fullClaim d c).toNat else 0

/-- The unit with the higher live claim. -/
def bestUnit (d : Dev) : Option Cluster :=
  let a := (liveClaim d .a).toNat
  let b := (liveClaim d .b).toNat
  if a = 0 ∧ b = 0 then none else if b ≤ a then some .a else some .b

def takeOwner (c : Cluster) (d : Dev) : Dev :=
  { d with belay := { d.belay with owner := liveClaim d c, ownerUnit := unitOf d c } }

/-- The owner changes between two live units: a switch-over. -/
def switchOver (c : Cluster) (d : Dev) : Dev :=
  let old := d.belay.owner
  let d := takeOwner c d
  let d := { d with belay := { d.belay with
    switchovers := up16 d.belay.switchovers, refreshDue := some (stPlus (now d) (acOfUs d 4000)) } }
  let d := holdStages (setFlag 0 d)
  let d := logE sevWarning 0x012 (wd old.toNat) (wd d.belay.owner.toNat) d
  fullRefresh (beaconAll d)

/-- A first owner, or an owner after none: stages leave NO_OWNER through its refresh. -/
def firstOwner (c : Cluster) (d : Dev) : Dev := fullRefresh (beaconAll (takeOwner c d))

/-- The owner as the claims now stand; BELAY_OWNER follows the owner's own claim. -/
def arbitrate (d : Dev) : Dev :=
  if !d.belay.chosen then d
  else match ownerCluster d with
    | none => match bestUnit d with
      | some c => firstOwner c d
      | none => d
    | some c =>
      let o := clOther c
      if (liveClaim d c).toNat = 0 then
        (if (liveClaim d o).toNat = 0 then enterNoOwner d else switchOver o d)
      else if (liveClaim d c).toNat < rivalClaim d o then switchOver o d
      else if liveClaim d c = d.belay.owner then d
      else beaconAll (takeOwner c d)

/-! ## Heartbeats (R284–R286, R306) -/

def enginesGone (d : Dev) (c : Cluster) : Bool := (List.range 4).all fun i => retired d (unitLoop c i)

/-- The Lock-keeper tests each engine in service of a silent cluster (R285). -/
def testCluster (c : Cluster) (d : Dev) : Dev :=
  forRange 4 (fun i d =>
    if retired d (unitLoop c i) then d else dispatchTest (unitLoop c i) { blankTest with reinstate := some c } d) d

/-- A claim is withdrawn for missed heartbeats (why 0) or for none by the end of the start wait (why 1). -/
def withdrawClaim (c : Cluster) (why : Nat) (d : Dev) : Dev :=
  let d := setTrack c { track d c with live := false, withdrawn := true, claim := 0#16 } d
  testCluster c (logE sevWarning 0x018 (wd (unitOf d c)) (wd why) d)

/-- The end of the start wait. -/
def chooseFirst (d : Dev) : Dev :=
  let d := { d with belay := { d.belay with chosen := true, waiting := none } }
  let late := fun (c : Cluster) (d : Dev) => if (track d c).started then d else withdrawClaim c 1 d
  arbitrate (late .b (late .a d))

/-- A heartbeat arrives; the next miss is counted from its stamp (R286, R306). -/
def heartbeat (c : Cluster) (seq : Half) (stamp : Stamp) (d : Dev) : Dev :=
  let t := { track d c with
    seq := seq, misses := 0, started := true, pref := prefOf d c, due := some (stPlus stamp (acOfUs d 1100)) }
  let d := setTrack c t d
  let d := emit (.heartbeatSeen (unitOf d c)) d
  if t.withdrawn || t.stopped || enginesGone d c then settle d
  else
    let old := liveClaim d c
    let d := setTrack c { t with live := true, claim := fullClaim d c } d
    if !d.belay.chosen then
      (if d.belay.a.started && d.belay.b.started then settle (chooseFirst d)
       else { d with belay := { d.belay with waiting := d.belay.waiting.or (some (stPlus stamp (acOfUs d 10000))) } })
    else
      let d := if liveClaim d c = old then d else beaconAll d
      settle (arbitrate d)

/-- 1.1 ms have passed without a heartbeat (R284, R286). -/
def heartbeatMiss (c : Cluster) (d : Dev) : Dev :=
  let t := track d c
  match t.due with
  | none => d
  | some s =>
    let t := { t with due := some (stPlus s (acOfUs d 1100)) }
    let d := { d with belay := { d.belay with hbMissed := up16 d.belay.hbMissed } }
    let d := setTrack c { t with misses := t.misses + 1 } d
    if t.misses + 1 = 3 ∧ !t.withdrawn then settle (arbitrate (beaconAll (withdrawClaim c 0 d))) else d

def belayStartWaitEnd (d : Dev) : Dev := if d.belay.waiting.isSome && !d.belay.chosen then settle (chooseFirst d) else d

def refreshLate (d : Dev) : Dev :=
  let d := { d with belay := { d.belay with refreshDue := none } }
  if belayState d = 1 then settle (logBelay 0x016 (setFlag 2 d)) else d

/-! ## HEALTH (R283) -/

/-- HEALTH falls, never below 1, and is logged with the claims before and after. -/
def lowerHealth (cs : List Cluster) (n : Nat) (unit : Nat) (d : Dev) : Dev :=
  let before := claimsNow d
  let d := forEach cs (fun c d => setTrack c { track d c with health := max 1 ((track d c).health - n) } d) d
  logUnit sevWarning 0x011 unit before (claimsNow d) d

/-- A cluster whose engines answered its test is reinstated with HEALTH lowered (R285). -/
def reinstate (c : Cluster) (d : Dev) : Dev :=
  if !(track d c).withdrawn then d
  else
    let d := lowerHealth [c] 20 0 d
    let t := track d c
    let d := setTrack c { t with withdrawn := false, misses := 0, live := t.started, claim := if t.started then fullClaim d c else 0#16 } d
    arbitrate (beaconAll d)

/-- A cluster with no engine left loses its claim (R284). -/
def dropIfBare (c : Cluster) (d : Dev) : Dev :=
  if enginesGone d c && (track d c).live then
    arbitrate (beaconAll (setTrack c { track d c with live := false, claim := 0#16 } d))
  else d

/-! ## Pair mode: the mirror (R300) -/

def prioWords (p : Prio) : List Word :=
  (List.range 16).map (fun i => Tab.get 0xFFFFFFFF#32 p.slots (i + 1)) ++
    [p.dflt, wd (at' 16 p.minOff + p.minOn), p.limit, wd p.degraded]

/-- The items of one dirty point: record, array, limit state. -/
def mirrorPoint (d : Dev) (id : Nat) : List MirrorItem :=
  match recOf d id with
  | none => []
  | some r =>
    [.point id (recWords r)] ++ (if commandable r then [.prio id (prioWords (prioOf d r))] else []) ++
    (match limitOf d (limitRef d r) with
     | some l => [.limit id (limitState l)]
     | none => [])

def mirrorLoop (d : Dev) (r : LoopRef) : List MirrorItem :=
  let l := if r.fast then Tab.find d.loops.fast r.idx else Tab.find d.loops.fabric r.idx
  match l with
  | some l =>
    let c := match computeOwner d with
      | .a => l.a
      | .b => l.b
    [.loop r (c.regs.map fun p => (p.2.1, p.2.2 + 16 * p.1)) c.blocks]
  | none => []

def mirrorZone (d : Dev) (z : Nat) : List MirrorItem :=
  match Tab.find d.zones.zones z with
  | some r => [.zone z ((List.range 128).map fun i => Tab.get 0#32 r.words i)]
  | none => []

def mirrorItems (d : Dev) : List MirrorItem :=
  d.pair.dirtyPoints.flatMap (mirrorPoint d) ++ d.pair.dirtyLoops.flatMap (mirrorLoop d) ++
    d.pair.dirtyZones.flatMap (mirrorZone d)

/-- Send what has changed; a lag ends with it. -/
def sendMirror (d : Dev) : Dev :=
  let d := emit (.rope (liveClaim d .a) (liveClaim d .b) d.pair.role (mirrorItems d)) d
  { d with pair := { d.pair with dirtyPoints := [], dirtyLoops := [], dirtyZones := [], lag := 0, lagging := false } }

/-- The whole store, every loop and zone, is to be sent (R302). -/
def markResync (d : Dev) : Dev :=
  { d with pair := { d.pair with
      dirtyPoints := (Tab.keys d.pe.recs).filter fun id => !isPredef id
      dirtyLoops := (Tab.keys d.loops.fabric).map (fun i => ⟨false, i⟩) ++ (Tab.keys d.loops.fast).map (fun i => ⟨true, i⟩)
      dirtyZones := Tab.keys d.zones.zones
      resyncs := up16 d.pair.resyncs } }

/-- A mirrored record is stored with its check, verified first (R50); the standby's own LINK and COV_INCREMENT stand. -/
def applyPoint (id : Nat) (ws : List Word) (d : Dev) : Dev :=
  match (if isPredef id then none else recOf d id) with
  | none => d
  | some r =>
    let w := fun i => ws.getD i 0#32
    let n : Rec := { r with
      value := w 0, check := hw (fld (w 1) 15 0), status := hw (fld (w 1) 31 16), stamp := ⟨w 2, hw (fld (w 3) 15 0)⟩
      prio := fld (w 3) 31 24, wall := w 4, source := w 5 }
    if !checkOk id n then testSource id n.source d
    else
      let n := setStBit n 4 (covPendingOf r)
      noteChange id { d with pe := { d.pe with recs := Tab.put d.pe.recs id n } }

def applyPrio (id : Nat) (ws : List Word) (d : Dev) : Dev :=
  match recOf d id with
  | none => d
  | some r =>
    if isPredef id || !commandable r then d
    else
      let w := fun i => ws.getD i 0#32
      let slots := (List.range 16).foldl (fun t i => if w i = 0xFFFFFFFF#32 then t else Tab.put t (i + 1) (w i)) []
      setPrio r { prioOf d r with slots := slots, degraded := fld (w 19) 15 0 } d

def applyLimit (id st : Nat) (d : Dev) : Dev :=
  match recOf d id with
  | none => d
  | some r =>
    match limitOf d (limitRef d r) with
    | some l => putLimit (limitRef d r) { l with w10 := setFld l.w10 19 16 st } d
    | none => d

/-- Mirrored registers and block states overwrite the shadow's (R301). -/
def applyLoop (ref : LoopRef) (regs : List (Word × Nat)) (blocks : List (List Word)) (d : Dev) : Dev :=
  let t := regs.foldl (fun t p => Tab.put t (p.2 / 16) (p.1, p.2 % 16)) []
  let f := fun (l : Loop) => { l with a := { regs := t, blocks := blocks }, b := { regs := t, blocks := blocks } }
  if ref.fast then { d with loops := { d.loops with fast := Tab.upd d.loops.fast ref.idx f } }
  else { d with loops := { d.loops with fabric := Tab.upd d.loops.fabric ref.idx f } }

def applyZone (z : Nat) (ws : List Word) (d : Dev) : Dev :=
  let t := (List.range 128).foldl (fun t i => Tab.set 0#32 t i (ws.getD i 0#32)) []
  { d with zones := { d.zones with zones := Tab.upd d.zones.zones z fun r => { r with words := t } } }

def applyItem (x : MirrorItem) (d : Dev) : Dev :=
  match x with
  | .point id ws => applyPoint id ws d
  | .prio id ws => applyPrio id ws d
  | .limit id st => applyLimit id st d
  | .loop ref regs blocks => applyLoop ref regs blocks d
  | .zone id ws => applyZone id ws d

/-! ## Pair mode: roles (R298–R305) -/

def setRole (r : Nat) (d : Dev) : Dev := { d with pair := { d.pair with role := r } }

/-- The gates of the shared points open: an extra BEACON, then their refresh under the owner's claim. -/
def openShared (d : Dev) : Dev := forEach d.pair.shared refreshDelivery (beaconAll d)

def takeover (d : Dev) : Dev := wearUp 9 (openShared (logBelay 0x015 (setFlag 4 (setRole 2 d))))

/-- The old active sends a last interval before its gates close. -/
def stepDown (d : Dev) : Dev := beaconAll (setRole 3 (if d.pair.linkUp then sendMirror d else d))

/-- Roles by the claim order, once the twin has been heard. -/
def judgeRole (d : Dev) : Dev :=
  let mine := (higherClaim d).toNat
  let theirs := max d.pair.twinLow.toNat d.pair.twinHigh.toNat
  if !d.pair.enabled || d.pair.mismatch then d
  else match d.pair.role with
    | 2 => if mine < theirs then stepDown d else d
    | 3 => if theirs < mine then takeover d else d
    | _ => if theirs < mine then openShared (setRole 2 d) else beaconAll (setRole 3 d)

/-- The two hashes differ: no pair is formed. -/
def misPair (d : Dev) : Dev :=
  if d.pair.mismatch then d
  else
    let d := setRole 0 { d with pair := { d.pair with mismatch := true } }
    logBelay 0x017 (setFlag 5 d)

/-- A valid link frame: link up, claims and lag learned; the link's return makes the active device resynchronise. -/
def hearLink (f : RopeFrame) (d : Dev) : Dev :=
  let was := d.pair.linkUp
  let d := { d with pair := { d.pair with
    linkUp := true, linkLost := false, twinLow := f.low, twinHigh := f.high, mismatch := false
    linkDue := some (stPlus f.arrived (acOfUs d 10000)), heardDue := some (stPlus f.arrived (acOfUs d 1000000)) } }
  let d := judgeRole d
  let d := if d.pair.role = 2 ∧ !was then markResync d else d
  if d.pair.role = 3 then
    let d := forEach f.items applyItem d
    { d with pair := { d.pair with lag := min 65535 f.lagMs, lagging := decide (50 < f.lagMs) } }
  else d

def ropeLinkFrame (f : RopeFrame) (d : Dev) : Dev :=
  if !f.crcOk then d
  else
    let d := alignCycle 1 f.stamp f.arrived 0 d
    let up := fun (d : Dev) => { d with pair := { d.pair with
      linkUp := true, linkDue := some (stPlus f.arrived (acOfUs d 10000)) } }
    if !d.pair.enabled then up d
    else if f.hash ≠ d.pair.hash then settle (misPair (up d))
    else settle (hearLink f d)

/-- The link is silent while the witness lives (R302). -/
def noteLinkLost (d : Dev) : Dev :=
  if d.pair.enabled && !d.pair.linkUp && !d.pair.linkLost && (d.pair.role == 2 || d.pair.role == 3) && witnessOk d then
    logBelay 0x014 (setFlag 3 { d with pair := { d.pair with linkLost := true } })
  else d

def ropeLinkSilent (d : Dev) : Dev :=
  settle (noteLinkLost { d with pair := { d.pair with linkUp := false, linkDue := none } })

/-- While the link is silent nothing is mirrored and the lag grows. -/
def mirrorInterval (d : Dev) : Dev :=
  if !d.pair.enabled || d.pair.mismatch then d
  else if d.pair.linkUp then (if d.pair.role = 2 then sendMirror d else d)
  else if d.pair.role = 2 ∨ d.pair.role = 3 then
    let lag := satAdd 65535 d.pair.lag 10
    { d with pair := { d.pair with lag := lag, lagging := decide (50 ≤ lag) } }
  else d

def witnessTimeout (d : Dev) : Dev :=
  if !d.pair.enabled then d
  else
    let d := { d with pair := { d.pair with witnessDue := none, heardDue := none, twinLow := 0#16, twinHigh := 0#16 } }
    if d.pair.role = 3 ∧ !d.pair.linkUp then settle (takeover d) else d

def pairSearchTimeout (d : Dev) : Dev :=
  let d := { d with pair := { d.pair with searchDue := none } }
  if d.pair.enabled && d.pair.role == 1 then settle (openShared (setRole 2 d)) else d

/-- A twin's BEACON (R273): cycle alignment after 28 characters, and a witness when its segment is one. -/
def beacon (t : Nat) (b : List Byte) (stamp : Stamp) (d : Dev) : Dev :=
  let x := receiveK t tBeacon b d
  match x.1 with
  | none => x.2
  | some f =>
    if f.src ≠ twinAddr x.2 then x.2
    else if f.len ≠ 5 ∨ 4 ≤ byteAt f.payload 4 then discard t x.2
    else
      let d := alignCycle 0 (f.stamp.getD stamp) stamp (charsAc x.2 t 28) x.2
      if d.pair.enabled && d.pair.witness.contains ((kwPort d t).getD 0) then
        let due := some (stPlus stamp (acOfUs d 1000000))
        settle (noteLinkLost (judgeRole { d with pair := { d.pair with
          witnessDue := due, heardDue := due, twinLow := hw (halfAt f.payload 0), twinHigh := hw (halfAt f.payload 2) } }))
      else d

/-! ## PAIR_CONFIG, CLAIM_READ (R297, R360) -/

def kwelaPortOpen (d : Dev) (p : Nat) : Bool := (kwTrunkOf d p).isSome

def witnesses (b : List Byte) : List Nat := ((List.range 4).map fun k => byteAt b (8 + k)).filter (· != 0xFF)

/-- Offset of the first field of the head at fault. -/
def pairBufFault (b : List Byte) (d : Dev) : Option Nat :=
  let n := (wordAt b 0xC).toNat
  let bad := (List.range 4).find? fun k =>
    let w := byteAt b (8 + k)
    w != 0xFF && (!kwelaPortOpen d w || ((List.range k).any fun j => byteAt b (8 + j) == w))
  if fld (wordAt b 0) 31 9 ≠ 0 then some 0
  else if fld (wordAt b 4) 31 8 ≠ 0 then some 4
  else match bad with
    | some k => some (8 + k)
    | none => if (witnesses b).isEmpty then some 8 else if n = 0 ∨ 65536 < n then some 0xC else none

def sharedAt (b : List Byte) (i : Nat) : Nat := (wordAt b (0x40 + 4 * i)).toNat

/-- The first shared point that may not be one. -/
def sharedFault (b : List Byte) (d : Dev) : Option Done :=
  (List.range (wordAt b 0xC).toNat).findSome? fun i =>
    let id := sharedAt b i
    if 8388608 ≤ id ∨ isPredef id then some (badBuf (0x40 + 4 * i))
    else match recOf d id with
      | none => some (fail stNotFound (wd id))
      | some r => if commandable r then none else some (badBuf (0x40 + 4 * i))

/-- A unit's claim with the unit number and preference now in force (R282; log entry 179). -/
def remakeClaim (c : Cluster) (d : Dev) : Dev :=
  let t := { track d c with pref := prefOf d c }
  let d := setTrack c t d
  if t.live then setTrack c { t with claim := fullClaim d c } d else d

/-- The pair mode begins: units, preferences and claims change, and the search for the twin starts (R282, R297, R299). -/
def pairOn (b : List Byte) (d : Dev) : Dev :=
  let owner := ownerCluster d
  let d := { d with pair := { d.pair with
    enabled := true, upper := bit (wordAt b 0) 8, prefA := fld (wordAt b 4) 3 0, prefB := fld (wordAt b 4) 7 4
    witness := witnesses b, shared := (List.range (wordAt b 0xC).toNat).map (sharedAt b)
    hash := (b.drop 0x10).take 48, role := 1, mismatch := false } }
  let d := { d with pair := { d.pair with
    linkDue := some (stPlus (now d) (acOfUs d 10000)), searchDue := some (stPlus (now d) (acOfUs d 1000000)) } }
  let d := match owner with
    | some c => { d with belay := { d.belay with ownerUnit := unitOf d c } }
    | none => d
  arbitrate (beaconAll (remakeClaim .b (remakeClaim .a d)))

def pairConfig (c : HostCmd) (d : Dev) : Option Done × Dev :=
  if shortBuf c 64 then (some (badField 0x28), d)
  else if byteAt c.buf 0 ≠ 1 then (some (fail stVersion (wd (byteAt c.buf 0))), d)
  else match pairBufFault c.buf d with
    | some o => (some (badBuf o), d)
    | none =>
      if shortBuf c (64 + 4 * (wordAt c.buf 0xC).toNat) then (some (badField 0x28), d)
      else if d.pair.enabled || !((d.pe.plan.map (·.pair)).getD false) then (some (fail stConflict), d)
      else match sharedFault c.buf d with
        | some x => (some x, d)
        | none =>
          let d := pairOn c.buf d
          (some (okWith (wd d.pair.role)), d)

def claimRead (_ : HostCmd) (d : Dev) : Option Done × Dev :=
  (some (okWith (belayClaims d) (twinClaims d) (belayStatus d)), d)

/-! ## Commands -/

def execMirrorInterval (s : State) := run mirrorInterval s
def execPairConfig (c : HostCmd) (s : State) := run (hostExec 0x0808 pairConfig c) s
def execClaimRead (c : HostCmd) (s : State) := run (hostExec 0x0806 claimRead c) s

end Sys2Proof.Machine
end

