-- ==== Sys2Proof/Machine/Pfw.lean ====
section
/-! DEFINITION. Pfw: the power-fail warning comes into force (R23, R400, R421). -/
namespace Sys2Proof.Machine

/-- Every pending Cairn log entry reaches NVM (R399, R400). -/
def flushLog (d : Dev) : Dev :=
  { d with nvm := { d.nvm with cairn := capList 4224 (d.nvm.cairn ++ d.lk.flush) }, lk := { d.lk with flush := [] } }

/-- The first event of a warning: logged with its source and the NVM writes in flight; the NVM holds what is not yet
accepted and suspends an erase (R400, R412, R421). -/
def beginWarning (source : Nat) (d : Dev) : Dev :=
  let d := logE sevWarning 0x002 (wd source) (wd (b2n d.nvm.running.isSome)) (flushLog d)
  let d := { d with lk := { d.lk with pfw := true, brownout := false, pfwEvents := up16 d.lk.pfwEvents, pfwStart := d.lk.rounds } }
  { flushLog d with nvm := { (flushLog d).nvm with hold := true, erasePaused := d.nvm.erasing.isSome } }

/-- MAINS_PFW is raised to the Lock-keeper (R23, R400). -/
def raiseMains (d : Dev) : Dev :=
  if !coreRuns d then d
  else
    let d := { d with lk := { d.lk with mainsPfw := true, pfwRound := d.lk.rounds } }
    if d.lk.pfw then d else beginWarning (if d.lk.pfi then 3 else 2) d

/-- PFI asserts (R433). -/
def pfiAssert (d : Dev) : Dev :=
  if !coreRuns d then d
  else
    let d := { d with lk := { d.lk with pfi := true } }
    if d.lk.pfw then d else beginWarning (if d.lk.mainsPfw then 3 else 1) d

/-- PFI deasserts; the 100 ms of R400 begin. -/
def pfiDeassert (d : Dev) : Dev := { d with lk := { d.lk with pfi := false, pfwRound := d.lk.rounds } }

def execPfiAssert (s : State) := run pfiAssert s
def execPfiDeassert (s : State) := run pfiDeassert s

end Sys2Proof.Machine
end

