-- ==== Sys2Proof/Machine/Rtc.lean ====
section
/-! DEFINITION. Rtc: the backup domain: counting, setting and reading the clock, alarms, wake, PWRON, trim and mains
discipline (R163–R180, R438). -/
namespace Sys2Proof.Machine

def setClk (c : Clock) (d : Dev) : Dev := { d with clk := c }

/-- The domain has a supply. -/
def clkOn (d : Dev) : Bool := !d.clk.absent

def halted (d : Dev) : Bool := bit d.clk.ctrl 0

/-- PWRON (R178). -/
def pwrOn (d : Dev) : Bool := bit d.clk.byte31 0 || bit d.clk.byte31 3

/-! ## Fields -/

def rtcGetField (f : RtcFields) : RtcField → Nat
  | .sec => f.sec | .min => f.min | .hour => f.hour | .day => f.day | .wday => f.wday | .month => f.month
  | .year => f.year

/-- A field at its width (the RTC register tables). -/
def rtcPutField (x : RtcField) (v : Nat) (f : RtcFields) : RtcFields :=
  match x with
  | .sec => { f with sec := v % 64 }
  | .min => { f with min := v % 64 }
  | .hour => { f with hour := v % 32 }
  | .day => { f with day := v % 32 }
  | .wday => { f with wday := v % 8 }
  | .month => { f with month := v % 16 }
  | .year => { f with year := v % 256 }

def snapOf (d : Dev) : Path → RtcFields
  | .lk => d.clk.snapLk
  | .reg => d.clk.snapReg
  | .towpath => d.clk.snapTow

def setSnap (p : Path) (f : RtcFields) (d : Dev) : Dev :=
  match p with
  | .lk => setClk { d.clk with snapLk := f } d
  | .reg => setClk { d.clk with snapReg := f } d
  | .towpath => setClk { d.clk with snapTow := f } d

/-! ## Counting (R170, R171) -/

def nextMonth (f : RtcFields) : RtcFields :=
  if f.month = 12 ∨ f.month = 15 then { f with month := 1, year := if f.year = 255 then 0 else f.year + 1 }
  else { f with month := f.month + 1 }

/-- Length of any month the field can hold (R171). -/
def anyMonthLen (y m : Nat) : Nat := if m = 0 ∨ 13 ≤ m then 31 else monthLen y m

def nextDay (f : RtcFields) : RtcFields :=
  if f.day = anyMonthLen f.year f.month ∨ f.day = 31 then nextMonth { f with day := 1 } else { f with day := f.day + 1 }

def nextWday (f : RtcFields) : RtcFields :=
  { f with wday := if f.wday = 0 ∨ f.wday = 7 then 1 else f.wday + 1 }

def nextHour (f : RtcFields) : RtcFields :=
  if 23 ≤ f.hour then nextWday (nextDay { f with hour := 0 }) else { f with hour := f.hour + 1 }

def nextMin (f : RtcFields) : RtcFields :=
  if 59 ≤ f.min then nextHour { f with min := 0 } else { f with min := f.min + 1 }

def nextSec (f : RtcFields) : RtcFields :=
  if 59 ≤ f.sec then nextMin { f with sec := 0 } else { f with sec := f.sec + 1 }

/-- The hour rolls at the next increment. -/
def hourRolls (f : RtcFields) : Bool := decide (59 ≤ f.sec ∧ 59 ≤ f.min ∧ 23 ≤ f.hour)

/-! ## Keys (R169, R174) -/

def todKey (f : RtcFields) : Nat := (f.hour * 64 + f.min) * 64 + f.sec
def dateKey (f : RtcFields) : Nat := (f.year * 16 + f.month) * 32 + f.day
def rtcKey (f : RtcFields) : Nat := dateKey f * 131072 + todKey f
def timeWordKey (w : Word) : Nat := (fld w 20 16 * 64 + fld w 13 8) * 64 + fld w 5 0
def alm0Key (d : Dev) : Nat :=
  ((fld d.clk.alm0Date 23 16 * 16 + fld d.clk.alm0Date 11 8) * 32 + fld d.clk.alm0Date 4 0) * 131072 +
    timeWordKey d.clk.alm0Time

/-! ## ODD_DATE (R172) -/

/-- ODD_DATE follows the fields; wall time counts on from `wall` when it is entered. -/
def refreshOdd (wall : Word) (d : Dev) : Dev :=
  let odd := oddDate d.clk.now
  if odd && !bit d.clk.status 8 then
    let d := setClk { d.clk with status := setBit d.clk.status 8 true, heldWall := wall, heldAt := runSec d } d
    timeEventQ 6 (wallTime d) d
  else if !odd && bit d.clk.status 8 then setClk { d.clk with status := setBit d.clk.status 8 false } d
  else d

/-! ## Alarms (R174–R178) -/

/-- An alarm fires: its flag, the arming of PWRON, its event; ALM0 clears its enable. -/
def fireAlarm (n : Nat) (d : Dev) : Dev :=
  let c := d.clk
  let c := { c with status := setBit c.status (n + 1) true,
                    ctrl := if n = 0 then setBit c.ctrl 1 false else c.ctrl }
  let c := if bit c.byte31 1 then { c with byte31 := setBit (setBit c.byte31 3 true) 7 false } else c
  let d := setClk c d
  timeEventQ (n + 1) (wallTime d) d

def alarmsAtIncrement (before : RtcFields) (d : Dev) : Dev :=
  let a := d.clk.now
  let t1 := timeWordKey d.clk.alm1Time
  let x0 := bit d.clk.ctrl 1 && decide (rtcKey before < alm0Key d ∧ alm0Key d ≤ rtcKey a)
  let x1 := bit d.clk.ctrl 2 &&
    (decide (todKey before < t1 ∧ t1 ≤ todKey a) || (hourRolls before && decide (t1 ≤ todKey a)))
  let d := setClk { d.clk with almAt := if (x0 || x1) && bit d.clk.byte31 1 then some (now d) else none } d
  let d := if x0 then fireAlarm 0 d else d
  if x1 then fireAlarm 1 d else d

/-- The release of HALT after a forward set (R175). -/
def alarmsAtRelease (d : Dev) : Dev :=
  let f := d.clk.frozen
  let a := d.clk.now
  if rtcKey a ≤ rtcKey f then d
  else
    let k0 := alm0Key d
    let t1 := timeWordKey d.clk.alm1Time
    let x0 := bit d.clk.ctrl 1 && decide (rtcKey f < k0 ∧ k0 ≤ rtcKey a)
    let x1 := bit d.clk.ctrl 2 &&
      (if dateKey f = dateKey a then decide (todKey f < t1 ∧ t1 ≤ todKey a)
       else decide (todKey f < t1 ∨ t1 ≤ todKey a ∨ dateKey (nextDay f) ≠ dateKey a))
    if bit d.clk.ctrl 3 then
      let d := if x0 || x1 then setClk { d.clk with status := setBit d.clk.status 4 true } d else d
      let d := if x0 then fireAlarm 0 d else d
      if x1 then fireAlarm 1 d else d
    else if x0 then
      setClk { d.clk with ctrl := setBit d.clk.ctrl 1 false, status := setBit d.clk.status 5 true } d
    else d

/-! ## Mains discipline (R180) -/

def closeWindow (d : Dev) : Dev := setClk { d.clk with discOpen := false, discSecs := 0 } d

/-- A window opens at an RTC second at which the timebase is LOCKED. -/
def windowSecond (d : Dev) : Dev :=
  if !bit d.clk.ctrl 8 then closeWindow d
  else if decide (d.tb.st ≠ .locked) then closeWindow d
  else if d.clk.discOpen then setClk { d.clk with discSecs := d.clk.discSecs + 1 } d
  else setClk { d.clk with discOpen := true, discSecs := 0, discCycle := d.tb.cycle } d

/-- The new TRIM from the cycles counted over the window, none when the mean rate is off by more than 0.5 %. -/
def disciplined (trim : Word) (c : Nat) : Option Word :=
  let nom : Int := if c < 55 * 86400 then 50 else 60
  let ideal : Int := 86400 * nom
  if c = 0 ∨ 1000 * ((c : Int) - ideal).natAbs > 5 * ideal.natAbs then none
  else
    let steps : Int := (2 * (1000000000 * (ideal - (c : Int))) + 954 * (c : Int)) / (2 * 954 * (c : Int))
    let step := max (-16) (min 16 steps)
    let t := max (-512) (min 511 (sgn 10 (fld trim 9 0) - step))
    some (wd (unsgn 10 t))

/-- The window ends once it has run 86,400 RTC seconds. -/
def mainsDiscWindowEnd (d : Dev) : Dev :=
  if !d.clk.discOpen ∨ !bit d.clk.ctrl 8 ∨ d.clk.discSecs < 86400 then d
  else if decide (d.tb.st ≠ .locked) then closeWindow d
  else
    let t := (disciplined d.clk.trim (d.tb.cycle - d.clk.discCycle).toNat).getD d.clk.trim
    setClk { d.clk with trim := t, discOpen := true, discSecs := 0, discCycle := d.tb.cycle } d

/-! ## Second by second -/

def rtcIncrement (d : Dev) : Dev :=
  if !clkOn d ∨ halted d then d
  else
    let wall := wallTime d
    let before := d.clk.now
    let wasOdd := oddDate before
    let d := setClk { d.clk with now := nextSec before, subsec := 0, stopSeen := false } { d with power := { d.power with osc32 := true } }
    let d := refreshOdd wall d
    let d := alarmsAtIncrement before d
    let d := windowSecond d
    settle (if wasOdd && !oddDate d.clk.now then evalScheds true (fun _ => true) d else d)

/-! ## HALT, release, fields (R166–R169, R175, R187) -/

/-- The sub-second count goes on within its second, by how much the model leaves open; under HALT it is frozen (R166,
R168; log entry 7). -/
def subsecRuns (d : Dev) : Dev :=
  if halted d then d
  else setClk { d.clk with subsec := d.clk.subsec + (freeWord d).toNat % (32768 - d.clk.subsec) } (drew d)

/-- HALT = 1: the prescaler and the fields hold from now on. -/
def haltRtc (d : Dev) : Dev :=
  if halted d then d
  else
    let d := subsecRuns d
    closeWindow (setClk { d.clk with ctrl := setBit d.clk.ctrl 0 true, frozen := d.clk.now, written := false } d)

/-- HALT = 0: the prescaler counts from zero; VALID, crossed alarms, schedules. -/
def releaseRtc (d : Dev) : Dev :=
  if !halted d then d
  else
    let d := setClk { d.clk with ctrl := setBit d.clk.ctrl 0 false, subsec := 0 } d
    let d := if d.clk.written then setClk { d.clk with status := setBit d.clk.status 7 true } d else d
    let d := alarmsAtRelease d
    let d := if d.clk.written then
        timeEventQ 4 (wallTime d) { d with zones := { d.zones with rtcSets := d.zones.rtcSets + 1 } } else d
    evalScheds true (fun _ => true) d

/-- A field write (R167): counter and snapshot of the path, or WRERR. -/
def writeField (p : Path) (x : RtcField) (v : Nat) (d : Dev) : Dev :=
  if !halted d then setClk { d.clk with status := setBit d.clk.status 0 true } d
  else
    let wall := wallTime d
    let d := setSnap p (rtcPutField x v (snapOf d p)) d
    refreshOdd wall (setClk { d.clk with now := rtcPutField x v d.clk.now, written := true } d)

def dateWord (f : RtcFields) : Word := wd (at' 24 f.year + at' 16 f.month + at' 8 f.day + f.wday)
def timeWord (f : RtcFields) : Word := wd (at' 16 f.hour + at' 8 f.min + f.sec)

def fieldsOf (date time : Word) : RtcFields :=
  { year := fld date 31 24, month := fld date 19 16, day := fld date 12 8, wday := fld date 2 0
    hour := fld time 20 16, min := fld time 13 8, sec := fld time 5 0 }

/-- The whole sequence of RTC_SET in one operation: HALT, all seven fields, release (R168). -/
def setRtc (date time : Word) (d : Dev) : Dev :=
  let wall := wallTime d
  let f := fieldsOf date time
  let d := setSnap .lk f (haltRtc d)
  releaseRtc (refreshOdd wall (setClk { d.clk with now := f, written := true } d))

/-- Reading RTC_SUBSEC gives the live count and latches the fields for its path (R166). -/
def latchFields (p : Path) (d : Dev) : Dev := setSnap p d.clk.now (subsecRuns d)

/-- A write to RTC_CTRL: its RW bits, and HALT by its own steps. -/
def writeRtcCtrl (v : Word) (d : Dev) : Dev :=
  let keep := d.clk.ctrl
  let d := setClk { d.clk with ctrl := rwMask keep v 0xFF0E#32 } d
  let d := if bit v 8 then d else closeWindow d
  if bit v 0 then haltRtc d else releaseRtc d

/-! ## Wake, bytes, supply (R163, R164, R177, R178) -/

def writeWake (v : Word) (d : Dev) : Dev := setClk { d.clk with wake := v &&& 0xCFFF#32 } d

/-- The interval is 1 s or longer (R189). -/
def wakeLong (w : Word) : Bool :=
  match fld w 15 14 with
  | 0 => decide (256 ≤ fld w 11 0)
  | 1 => decide (16 ≤ fld w 11 0)
  | _ => true

def wakeEnd (d : Dev) : Dev :=
  if !clkOn d ∨ fld d.clk.wake 11 0 = 0 then d
  else
    let c := { d.clk with status := setBit d.clk.status 3 true }
    let c := if bit c.byte31 2 then
        { c with byte31 := setBit (setBit c.byte31 3 true) 7 (c.almAt != some (now d)) } else c
    let d := setClk c d
    settle (if wakeLong c.wake then timeEventQ 3 (wallTime d) d else d)

def writeByte31 (v : Word) (d : Dev) : Dev := setClk { d.clk with byte31 := rwMask d.clk.byte31 v 0x0F#32 } d

def supplySwitch (aon vbak : Nat) (d : Dev) : Dev :=
  let toBat := decide (aon < vbak ∨ aon < 2700)
  let back := decide (2760 < aon ∧ vbak + 60 < aon)
  let on := if d.clk.onVbak then !back else toBat
  setClk { d.clk with onVbak := on, absent := d.clk.absent || decide (aon = 0 ∧ vbak = 0),
                      status := setBit d.clk.status 6 on } d

def domainPowerUp (d : Dev) : Dev := setClk {} d

def oscStop (d : Dev) : Dev := { d with power := { d.power with osc32 := false } }

/-! ## TIME commands (R364) -/

def rtcGet (_ : HostCmd) (d : Dev) : Option Done × Dev :=
  let d := latchFields .lk d
  (some (okWith (wallTime d) (dateWord d.clk.now)
    (wd ((timeWord d.clk.now).toNat + at' 23 (fld d.clk.status 8 0)))), d)

def rtcSet (c : HostCmd) (d : Dev) : Option Done × Dev :=
  let d := setRtc c.p0 c.p1 d
  (some (okWith (wallTime d)), d)

def rtcTrim (c : HostCmd) (d : Dev) : Option Done × Dev :=
  if bit d.clk.ctrl 8 then (some (fail stConflict), d)
  else (some ok, setClk { d.clk with trim := wd (fld c.p0 9 0) } d)

/-! ## Commands -/

def execRtcIncrement (s : State) := run rtcIncrement s
def execRtcHalt (s : State) := run haltRtc s
def execRtcRelease (s : State) := run (fun d => settle (releaseRtc d)) s
def execRtcFieldWrite (path : Path) (field : RtcField) (v : Word) (s : State) :=
  run (fun d => settle (writeField path field v.toNat d)) s
def execRtcSubsecRead (path : Path) (s : State) :=
  run (fun d => let d := latchFields path d; emit (.readData (wd d.clk.subsec)) d) s
def execRtcWakeWrite (v : Word) (s : State) := run (writeWake v) s
def execWake (s : State) := run wakeEnd s
def execBkByte31Write (v : Word) (s : State) := run (writeByte31 v) s
def execMainsDiscWindowEnd (s : State) := run mainsDiscWindowEnd s
def execBackupSupplySwitch (aonMv vbakMv : Nat) (s : State) := run (supplySwitch aonMv vbakMv) s
def execBackupDomainPowerUp (s : State) := run domainPowerUp s
def execOscillator32kStop (s : State) := run oscStop s
def execRtcGet (c : HostCmd) (s : State) := run (hostExec 0x0401 rtcGet c) s
def execRtcSet (c : HostCmd) (s : State) := run (hostExec 0x0402 rtcSet c) s
def execRtcTrim (c : HostCmd) (s : State) := run (hostExec 0x0403 rtcTrim c) s

end Sys2Proof.Machine
end

