-- ==== Sys2Proof/Machine/Grid.lean ====
section
/-! DEFINITION. Grid: mains crossings, timebase states and rate (R15–R25), the angle event table as it fires (R26–R33), the
cycle boundary and its fabric tick, the die link (R9–R11). -/
namespace Sys2Proof.Machine

def setTb (t : Timebase) (d : Dev) : Dev := { d with tb := t }

/-! ## Frequencies (R16, R20, R21) -/

/-- A half-period that implies 45 to 65 Hz. -/
def hzOk (hz : Word) : Bool := F32.ge hz (F32.ofNat 45) && F32.le hz (F32.ofNat 65)

/-- Sum of half-periods given by their frequencies, as a fraction. -/
def periodSum (l : List Word) : Nat × Nat :=
  l.foldl (fun s f => if F32.isZero f then s else (s.1 * F32.magNum f + F32.magDen f * s.2, s.2 * F32.magNum f)) (0, 1)

/-- The frequency of the mean of measured half-periods. -/
def meanHz (l : List Word) : Word := let s := periodSum l; F32.rat (l.length * s.2) s.1

/-- The newest 16 half-periods. -/
def pushHalf (hz : Word) (t : Timebase) : Timebase :=
  let h := capList 16 (t.halves ++ [hz])
  { t with halves := h, measured := meanHz h }

/-- The half-periods of the last four crossings agree within 1 % (R20). -/
def agree4 (l : List Word) : Bool :=
  let l := capList 4 l
  decide (l.length = 4) && l.all fun x => l.all fun y => F32.le x (F32.mul y (F32.rat 101 100))

def fallbackHz (t : Timebase) : Word := F32.ofNat (if bit t.ctrl 4 then 60 else 50)

/-- The frequency the rate moves to outside RELOCKING and LOCKED (R20, R21). -/
def targetHz (t : Timebase) : Word :=
  match t.st with
  | .acquiring => fallbackHz t
  | .lost => if t.mode = 0 then fallbackHz t else t.base
  | .synthetic => F32.ofNat (if t.mode = 3 then 60 else 50)
  | _ => t.base

/-- |k| ≤ 0.01, as a free number of millionths (R21; log entry 7). -/
def kMillionths (d : Dev) : Nat := (freeWord d).toNat % 10001

/-- A frequency times (1 + k), `up` giving the sign of k. -/
def withK (f : Word) (up : Bool) (m : Nat) : Word :=
  F32.mul f (F32.rat (if up then 1000000 + m else (1000000 : Int) - m) 1000000)

/-- A phase difference the shorter way round the cycle. -/
def shortWay (i : Int) : Int := sgn 16 (unsgn 16 i)

/-! ## States (R20) -/

def tbFlag (n : Nat) (t : Timebase) : Timebase := { t with flags := setBit t.flags n true }

/-- The states in which the timebase follows the mains. -/
def follows (st : TbState) : Bool := decide (st = .locked) || decide (st = .relocking)

/-- Enter a state; leaving LOCKED closes a discipline window (R180). A run of missed crossings goes on between LOCKED and
RELOCKING (R20). -/
def enterTb (st : TbState) (d : Dev) : Dev :=
  let d := if d.tb.st = .locked ∧ st ≠ .locked then closeWindow d else d
  let run := if follows d.tb.st && follows st then d.tb.missRun else 0
  let t := { d.tb with st := st, missRun := run, inPhase := 0, agree := 0 }
  (if st = .locked then id else tgLockLost) <| setTb (match st with
    | .relocking => { t with slewK := 0, slewLeft := 0 }
    | .locked => { tbFlag 3 t with pfwRaised := false }
    | .holdover => { tbFlag 1 t with base := t.held, rate := t.held }
    | .lost => tbFlag 2 t
    | _ => t) d

/-- A missed crossing (R16, R20, R23): the first keeps the holdover frequency, the second in LOCKED raises MAINS_PFW, the
third enters HOLDOVER. -/
def countMiss (d : Dev) : Dev :=
  let t := d.tb
  let run := t.missRun + 1
  let t := { t with missed := up16 t.missed, missRun := run, held := if run = 1 then meanHz t.halves else t.held }
  let pfw := decide (run = 2) && decide (t.st = .locked) && bit t.ctrl 5 && !t.pfwRaised
  let d := setTb (if pfw then { tbFlag 0 t with pfwRaised := true } else t) d
  let d := if pfw then raiseMains d else d
  if 3 ≤ run then enterTb .holdover d else d

/-- A mains point turns STALE and keeps the value it has when the change is made (R17). -/
def staleMains (o : Nat) (d : Dev) : Dev := enqueueQuality o qStale (srcField o) d

/-- MS_PRESENT ceases: the mains points keep their value with quality STALE, now and at each cycle's write (R17, log
entry 19). -/
def mainsGone (d : Dev) : Dev :=
  if !d.tb.present then d
  else staleMains 0x501 (staleMains 0x500 (setTb { d.tb with present := false } d))

/-- The angle at which the mains cross (R16). -/
def expectedAngle (t : Timebase) (rising : Bool) : Nat := t.ofs.toNat + (if rising then 0 else 32768)

/-- A crossing in RELOCKING: |error| < 64 ac at every one of 32, 16 cycles, enters LOCKED (R20). One whose half-period lies
outside 45 to 65 Hz is missed as well and does not feed the rate (log entry 159). -/
def relockCrossing (e : Int) (hz : Word) (good : Bool) (d : Dev) : Dev :=
  let n := if e.natAbs < 64 then d.tb.inPhase + 1 else 0
  let d := if good then
      let t := pushHalf hz d.tb
      let t := { t with missRun := 0, base := t.measured, rate := withK t.measured (decide (e < 0)) (kMillionths d) }
      drew (setTb t d)
    else countMiss d
  if d.tb.st ≠ .relocking then d
  else
    let d := setTb { d.tb with inPhase := n } d
    if 32 ≤ n then enterTb .locked (setTb { d.tb with rate := d.tb.measured } d) else d

/-- Four crossings that agree leave ACQUIRING, HOLDOVER and LOST for RELOCKING (R20). -/
def acquireCrossing (e : Int) (hz : Word) (d : Dev) : Dev :=
  let t := pushHalf hz d.tb
  let t := { t with agree := t.agree + 1 }
  let d := setTb t d
  if 4 ≤ t.agree ∧ agree4 t.halves then
    let d := enterTb .relocking d
    drew (setTb { d.tb with base := t.measured, rate := withK t.measured (decide (e < 0)) (kMillionths d) } d)
  else d

/-- A crossing has qualified; `edge` is the angle of the comparator edge that dates it (R15–R17, R20, R21). In LOCKED one
inside its window whose half-period lies outside 45 to 65 Hz sets TB_PHASE_ERR and is counted as missed; the rate and the
mean of half-periods do not take it (DESIGN CHOICE, log entry 159). -/
def crossingQualified (rising : Bool) (edge : Half) (hz : Word) (d : Dev) : Dev :=
  if !d.tb.refRuns || !d.power.fieldUp then d
  else
    let good := hzOk hz
    let d := if good then setTb { d.tb with present := true, everPresent := true } d else mainsGone d
    let e := shortWay ((edge.toNat : Int) - expectedAngle d.tb rising)
    if d.tb.st = .locked ∧ 8192 < e.natAbs then setTb { d.tb with glitch := up16 d.tb.glitch } d
    else
      let d := setTb { d.tb with err := hw (unsgn 16 e) } d
      match d.tb.st with
      | .locked =>
        if !good then countMiss d
        else
          let t := pushHalf hz d.tb
          setTb { t with missRun := 0, base := t.measured, rate := t.measured } d
      | .relocking => relockCrossing e hz good d
      | .synthetic => if good then setTb (pushHalf hz d.tb) d else d
      | _ => if good then acquireCrossing e hz d else setTb { d.tb with agree := 0 } d

/-- No crossing dated inside its window has qualified in time. -/
def crossingMissed (d : Dev) : Dev :=
  if decide (d.tb.st = .locked) || decide (d.tb.st = .relocking) then countMiss d else d

def holdoverTimeout (d : Dev) : Dev := if d.tb.st = .holdover then enterTb .lost d else d

/-! ## Register writes -/

/-- TB_CTRL: MODE is applied at the next cycle boundary. -/
def writeTbCtrl (v : Word) (d : Dev) : Dev := setTb { d.tb with ctrl := v &&& 0xF3#32 } d

/-- k of a phase slew outside RELOCKING, 1 to 10,000 millionths: any value of the rule that closes the change (R21; log
entry 7). -/
def slewMillionths (d : Dev) : Nat := 1 + (freeWord d).toNat % 10000

/-- What a phase slew has still to pass, in ac: `slewLeft` counts at base × (1 + k) pass k / (1 + k) of that beyond what
the base rate would. -/
def slewRest (t : Timebase) : Int := t.slewLeft * t.slewK / (1000000 + t.slewK)

/-- A phase slew of `df` ac starts: the rate takes a (1 + k) for the counts it needs (R21). -/
def startSlew (df : Int) (d : Dev) : Dev :=
  if df = 0 then setTb { d.tb with slewK := 0, slewLeft := 0, rate := d.tb.base } d
  else
    let m := slewMillionths d
    let k : Int := if 0 < df then m else -m
    drew (setTb { d.tb with
      slewK := k
      slewLeft := (df.natAbs * (1000000 + k).toNat + m - 1) / m
      rate := withK d.tb.base (decide (0 < df)) m } d)

/-- TB_PHASE_OFS: LOCKED relocks; elsewhere the change passes by slewing, with what is left of an earlier one (R21). -/
def writePhaseOfs (v : Word) (d : Dev) : Dev :=
  let n := hw v.toNat
  let df := shortWay ((n.toNat : Int) - d.tb.ofs.toNat)
  let d := setTb { d.tb with ofs := n } d
  if df = 0 then d
  else match d.tb.st with
    | .locked => enterTb .relocking d
    | .relocking => d
    | _ => startSlew (slewRest d.tb + df) d

/-- TB_ANGLE (R18). -/
def readAngle (d : Dev) : Word × Dev := (wd d.tb.angle.toNat, setTb { d.tb with snap := d.tb.cycle } d)

def tbAngleRead (d : Dev) : Dev := let r := readAngle d; emit (.readData r.1) r.2

/-! ## The 25 MHz reference (R20, R437) -/

def refClockStop (d : Dev) : Dev :=
  if !d.tb.refRuns then d
  else
    let d := enterTb .lost d
    setTb { d.tb with refRuns := false, lostByRef := true } d

def refClockRestart (d : Dev) : Dev :=
  if d.tb.refRuns then d
  else
    let syn := d.tb.lostByRef && decide (2 ≤ d.tb.mode)
    let d := setTb { d.tb with refRuns := true, lostByRef := false } d
    if syn then enterTb .synthetic d else d

/-! ## Dispatches (R28–R33) -/

/-- Start a coil's profile for an entry; a pull-in that the bank defers is LATE as well (R33). -/
def coilFire (i ch : Nat) (late : Bool) (d : Dev) : Dev :=
  let c := chanOf d ch
  let d := setChan ch { c with armed := false } d
  if !chEnabled c || !decide (c.st = 0 ∨ c.st = 4) || decide (2 ≤ stageState d ch) then d
  else
    let d := requestAt ch (fieldNow d) d
    if decide ((chanOf d ch).st = 1) && !late then markLate i d else d

/-- An event waits for its ring; a later occurrence replaces its stamp and adds one (R28). -/
def hostFire (i : Nat) (e : AngleEntry) (late : Bool) (d : Dev) : Dev :=
  let n := satAdd 65535 (((Tab.find d.tb.waiting i).map (·.count)).getD 0) 1
  { d with tb := { d.tb with
      waiting := Tab.put d.tb.waiting i ⟨fld e.w2 4 0, e.w3, n, e.occ, late, tbStateCode d.tb.st⟩ } }

/-- A gate output fires: nothing in the fail-safe or without an owner, nothing without lock where LOCK_REQ asks for it, and
nothing on the TG15 ball while it carries FAN7's PWM (R242, R248, R254, R289). -/
def gateFire (n angle : Nat) (d : Dev) : Dev :=
  if 2 ≤ stageState d (64 + n) then d
  else if tgNoLock d n then tgUnlock n d
  else if n = 15 && bit (tgOf d 15).cfg 3 then d
  else emit (.gate n angle (tgPulse n angle d)) d

/-- The action of an entry at an occurrence (*Angle event actions*). A RELAY_CLOSE acts at its start stamp. -/
def fireAction (i : Nat) (e : AngleEntry) (late : Bool) (d : Dev) : Dev :=
  match aeAction e with
  | 1 =>
    let d := emit (.sampleTrigger (fld e.w2 3 0) (fld e.w2 21 16)) d
    forRange 4 (fun c d => if bit e.w2 c then triggerAdc c (fld e.w2 21 16) d else d) d
  | 2 => gateFire (fld e.w2 3 0) e.occ.angle.toNat d
  | 3 => coilFire i (fld e.w2 5 0) late d
  | 4 => if e.started then d else coilFire i (fld e.w2 5 0) true (markLate i d)
  | 5 => fastTick i (fld e.w2 11 0) e.occ d
  | 6 => forRange 16 (fun t d => if bit e.w2 t then queueSampleAt t ⟨e.occ.cycle + 3#32, hw e.w3.toNat⟩ d else d) d
  | 7 => hostFire i e late d
  | _ => d

/-- A computed start stamp that is already past, or on the count where a write has landed, starts the coil at once, LATE
(R31, R33). -/
def startPast (landing : Bool) (i : Nat) (d : Dev) : Dev :=
  match Tab.find d.tb.entries i with
  | some e =>
    if aeEnabled e && aeAction e == 4 && !e.started &&
        (if landing then !(later e.start (fieldNow d)) else later (fieldNow d) e.start) then
      coilFire i (fld e.w2 5 0) true (markLate i (putEntry i { e with started := true } d))
    else d
  | none => d

/-- The next occurrence of a repeating entry; a one-shot clears ENABLE (R29). -/
def advanceEntry (i : Nat) (d : Dev) : Dev :=
  match Tab.find d.tb.entries i with
  | some e =>
    if aeRepeat e = 0 then putEntry i { e with w0 := setBit e.w0 31 false } d
    else startPast false i (putEntry i (withOcc (stPlus e.occ (aeRepeat e * 32768)) e d) d)
  | none => d

/-- One occurrence fires; `late` marks the entry. The occurrence advances before the action, which may rewrite the entry. -/
def fireEntry (i : Nat) (late : Bool) (d : Dev) : Dev :=
  match Tab.find d.tb.entries i with
  | some e =>
    if !aeEnabled e then d
    else
      let d := if late && aeAction e != 4 then markLate i d else d
      fireAction i e late (advanceEntry i d)
  | none => d

/-! ### The order of dispatch (R30, R31) -/

/-- What asks for a dispatch: entry index, the entry, and whether a write has displaced it. -/
abbrev Due := Nat × AngleEntry × Bool

def allDue (d : Dev) : List Due :=
  (d.tb.owed.map fun p => (p.1, p.2, true)) ++
    (d.tb.entries.filter fun p => aeEnabled p.2).map fun p => (p.1, p.2, false)

/-- In order of occurrence, on one count in ascending index order. -/
def dueBefore (a b : Due) : Bool :=
  later (dueKey b.2.1) (dueKey a.2.1) || dueKey a.2.1 == dueKey b.2.1 && decide (a.1 < b.1)

/-- The first that is due before a count, or on it as well. -/
def nextDue (lim : Stamp) (on : Bool) (d : Dev) : Option Due :=
  ((allDue d).filter fun x => later lim (dueKey x.2.1) || on && dueKey x.2.1 == lim).foldl (fun m x =>
    match m with
    | none => some x
    | some y => if dueBefore x y then some x else m) none

/-- The start stamp of a RELAY_CLOSE occurrence (R33). -/
def startRelay (i : Nat) (e : AngleEntry) (late : Bool) (d : Dev) : Dev :=
  let d := putEntry i { e with started := true } d
  coilFire i (fld e.w2 5 0) late (if late then markLate i d else d)

/-- The angle comes to the count of what is due, and it is dispatched: LATE when its count has passed. -/
def dispatch (x : Due) (d : Dev) : Dev :=
  let d := reach (dueKey x.2.1) d
  let late := decide (dueKey x.2.1 ≠ fieldNow d)
  settle (if x.2.2 then fireAction x.1 x.2.1 late { d with tb := { d.tb with owed := d.tb.owed.erase (x.1, x.2.1) } }
    else if !x.2.1.started && aeAction x.2.1 == 4 then startRelay x.1 x.2.1 late d
    else fireEntry x.1 late d)

def passFuel : Nat → Stamp → Bool → Dev → Dev
  | 0, _, _, d => d
  | n + 1, lim, on, d => match nextDue lim on d with
    | none => d
    | some x => passFuel n lim on (dispatch x d)

/-- The angle advances within the present cycle to a count: every occurrence before it, or on it as well, fires as the
angle passes its count (R19, R30). An entry comes round at most twice in a cycle and starts its coil as often. -/
def passTo (lim : Stamp) (on : Bool) (d : Dev) : Dev :=
  if !d.tb.refRuns || lim.cycle != d.tb.cycle then d
  else reach lim (passFuel (4 * (d.tb.entries.length + d.tb.owed.length)) lim on d)

/-- An arrival on the field die, or on the core die, is complete at its stamp: it comes before the dispatches of its
count (R35, R36). -/
def arriveField (s : Stamp) (d : Dev) : Dev := passTo s false d
def arrive (s : Stamp) (d : Dev) : Dev := passTo (fieldStamp d s) false d

def expire (s : Stamp) (d : Dev) : Dev := passTo (fieldStamp d s) true d

/-! ## ANGLE_EVENT_SET (R31, R32, R364) -/

def landEntry (i : Nat) (w0 w1 w2 w3 : Word) (d : Dev) : Dev :=
  let r := writeEntryAt i w0 w1 w2 w3 d
  startPast true i (if r.1 then fireEntry i true r.2 else r.2)

def angleEventSet (c : HostCmd) (d : Dev) : Option Done × Dev :=
  match entryFault c.p0 c.p2 with
  | some off => (some (badField off), d)
  | none =>
    let idx := if c.target = all1 then freeEntry d else if c.target.toNat < 1024 then some c.target.toNat else none
    match idx with
    | none => (some (if c.target = all1 then fail stNoCapacity else badField 0x08), d)
    | some i =>
      let none' := decide (fld c.p0 19 16 = 0)
      match (if none' then releaseCheck [resAngle i] ownHost d else claimCheck [resAngle i] ownHost d) with
      | some x => (some (claimError x), d)
      | none =>
        if none' then (some (okWith (wd i)), keepFreeWords i c.p0 c.p1 c.p2 c.p3 d)
        else (some (okWith (wd i)), landEntry i c.p0 c.p1 c.p2 c.p3 (claimAll [resAngle i] ownHost d))

/-! ## The cycle boundary (R18, R20, R21, R25, R26) -/

/-- A mode change takes effect (R20). -/
def applyMode (d : Dev) : Dev :=
  let m := fld d.tb.ctrl 1 0
  if m = d.tb.mode then d
  else
    let old := d.tb.mode
    let d := setTb { d.tb with mode := m } d
    if 2 ≤ m then (if d.tb.st = .synthetic ∨ d.tb.lostByRef then d else enterTb .synthetic d)
    else if 2 ≤ old ∧ d.tb.st = .synthetic then enterTb .acquiring d
    else d

/-- The rate moves to its target by at most 0.5 Hz per second of the cycle just begun; a phase slew keeps its (1 + k) on
the base rate (R21). -/
def moveRate (d : Dev) : Dev :=
  let t := d.tb
  if follows t.st then d
  else
    let goal := targetHz t
    let step := F32.div (F32.rat 1 2) t.base
    let base := if F32.le (F32.abs (F32.sub goal t.base)) step then goal
      else if F32.gt goal t.base then F32.add t.base step else F32.sub t.base step
    setTb { t with
      base := base
      rate := if t.slewLeft = 0 then base else withK base (decide (0 < t.slewK)) t.slewK.natAbs } d

/-- Entries of skipped cycles: one-shots fire LATE at the boundary in index order, repeating entries go on from their first
occurrence not before it (R26). -/
def skipEntry (b : Stamp) (i : Nat) (d : Dev) : Dev :=
  match Tab.find d.tb.entries i with
  | some e =>
    if !aeEnabled e then d
    else if !later b e.occ then startPast false i d
    else if aeRepeat e = 0 then fireEntry i true (if aeAction e == 4 && e.started then markLate i d else d)
    else
      let p := aeRepeat e * 32768
      let k := ((stampDiff b e.occ).toNat + p - 1) / p
      startPast false i (putEntry i (withOcc (stPlus e.occ (k * p)) e d) d)
  | none => d

/-- The counter jumps by what a beacon asked for; a discipline window counts the mains, not the jump (R25, R180). -/
def jumpCycles (d : Dev) : Dev :=
  let n := d.tb.jump
  if n = 0 then d
  else
    let d := setTb { tbFlag 5 d.tb with cycle := d.tb.cycle + wd n, jump := 0 } d
    let d := setClk { d.clk with discCycle := d.clk.discCycle + wd n } d
    let d := logE sevNotice 0x035 (wd n) (wd (d.tb.jumpSource + 1)) d
    let d := missCycles (d.tb.cycle - wd n) n d
    forEach (Tab.keys d.tb.entries) (skipEntry (fieldNow d)) d

/-- The mains points, once per cycle (R17): measured while MS_PRESENT holds, after it the last values with quality STALE;
not written before it has first held. -/
def mainsPoints (rms : Word) (d : Dev) : Dev :=
  if !d.tb.everPresent then d
  else if !d.tb.present then
    staleMains 0x501 (staleMains 0x500 d)
  else
    enqueueField 0x501 (F32.mul rms d.tb.scale) qGood (fieldNow d) (srcField 0x501)
      (enqueueField 0x500 d.tb.measured qGood (fieldNow d) (srcField 0x500) d)

/-- Limit blocks are judged at every fabric tick (R77). -/
def limitTick (d : Dev) : Dev :=
  forEach (d.pe.subs.filterMap fun p => match p.2 with
      | .limit l => some l.point
      | _ => none)
    (fun id d => match recOf d id with
      | some r => judgeLimit id (evalLimit id (limitRef d r) 4) d
      | none => d) d

/-- What the fabric tick of the cycle does on the field die and the point engine. -/
def tickWork (d : Dev) : Dev :=
  let d := forRange 48 coilCurrentTick d
  let d := forRange 48 pulseTick d
  let d := forRange 8 fanTick { d with zones := { d.zones with tickSec := runSec d } }
  if coreRuns d && pipesServe d then limitTick d else d

/-- The core die's own clock over the cycle just begun (R10, R11): at the mains frequency last reported while the link is
down; after that it is slewed onto the field die's angle by at most 1 % of a cycle, 655 ac. -/
def coreClock (d : Dev) : Dev :=
  let off := d.link.coreOff + d.link.coreDrift
  let drift : Int :=
    if d.link.coreLost then
      (F32.round (F32.mul (F32.ofNat 65536) (F32.div d.link.coreHz d.tb.rate)) : Int) - 65536
    else if 0 < off then -(min off 655) else min (-off) 655
  { d with link := { d.link with coreOff := off, coreDrift := drift } }

/-- The angle passes from 65,535 to 0, once it has passed every count before (R18, R19). -/
def cycleBoundary (rms : Word) (d : Dev) : Dev :=
  if !d.tb.refRuns then d
  else
    let d := passTo ⟨d.tb.cycle, 65535#16⟩ true d
    let d := setTb { passCounts 1 d.tb with angle := 0#16, cycle := d.tb.cycle + 1#32 } d
    let d := coreClock (moveRate (applyMode (jumpCycles d)))
    settle (tickWork (mainsPoints rms d))

/-! ## The die link (R9–R11) -/

/-- A frame that fails its CRC-32C is resent; a valid one of the field die brings captures (R213). -/
def dieLinkFrame (fromCore crcOk : Bool) (d : Dev) : Dev :=
  if !crcOk then { d with link := { d.link with retries := d.link.retries + 1 } }
  else if fromCore || d.link.coreLost then d
  else forwardCaptures d

def fieldDieLinkLoss (d : Dev) : Dev :=
  if d.link.fieldLost then d else settle (failSafeField 3 { d with link := { d.link with fieldLost := true } })

/-- IO-class commands that wait complete with HW_FAULT, and nothing waits for them any longer. -/
def dropIoCommands (d : Dev) : Dev :=
  let waits := d.hif.fetched.filter fun f => f.begun && opClass f.opcode == 5
  let orphan := fun (u : Urgent) => match u with
    | .readNow _ (some _) => .selfTest
    | u => u
  let adc := fun (a : Adc) => { a with
    urgents := a.urgents.map fun u => (orphan u.1, u.2)
    run := match a.run with
      | .urgent u s => .urgent (orphan u) s
      | r => r }
  let d := { d with
    inp := { d.inp with adcs := Tab.mapVals d.inp.adcs fun _ a => adc a }
    coil := { d.coil with diagWait := [] } }
  let d := forRange 48 (fun ch d => modChan ch (fun c => { c with waiting := [] }) d) d
  forEach waits (fun f d => completeCmd f.opcode f.cmd (fail stHwFault) d) d

/-- Points 0x4F_F000–0x4F_F3FF that exist. -/
def localPoints : List Nat := (List.range 1024).filter fun o => (predefKind o).isSome

def coreDieLinkLoss (d : Dev) : Dev :=
  if d.link.coreLost then d
  else
    let n := d.link.retries
    let d := { d with link := { d.link with coreLost := true, retries := 0, coreHz := d.tb.measured } }
    let d := forEach localPoints (fun o d => engineQuality (predefBase + o) qFault srcEngine d) d
    settle (logE sevWarning 0x034 0#32 (wd n) (dropIoCommands d))

/-- The link returns: held writes of the field die go on, and a full refresh under the owner's claim ends the fail-safe;
without an owner the stages stand in NO_OWNER (R11, R254, R289). -/
def dieLinkReturn (d : Dev) : Dev :=
  if !d.link.coreLost && !d.link.fieldLost then d
  else
    let n := d.link.retries
    let d := logE sevWarning 0x034 1#32 (wd n)
      { d with link := { d.link with fieldLost := false, coreLost := false, retries := 0 } }
    let held := d.pe.heldField
    let d := forEach held enqueue { d with pe := { d.pe with heldField := [] } }
    settle (if d.belay.ownerUnit = 0 then
        forRange 88 (fun k d => if stageState d k = 3 then setStage k 2 d else d) d
      else fullRefresh d)

def execDieLinkFrame (fromCore crcOk : Bool) (s : State) := run (dieLinkFrame fromCore crcOk) s
def execFieldDieLinkLoss (s : State) := run fieldDieLinkLoss s
def execCoreDieLinkLoss (s : State) := run coreDieLinkLoss s
def execDieLinkReturn (s : State) := run dieLinkReturn s
def execCrossingQualified (rising : Bool) (edge : Half) (hz : Word) (s : State) := run (crossingQualified rising edge hz) s
def execCrossingMissed (s : State) := run crossingMissed s
def execMsPresentLapse (s : State) := run mainsGone s
def execCycleBoundary (rms : Word) (s : State) := run (cycleBoundary rms) s
def execHoldoverTimeout (s : State) := run holdoverTimeout s
def execTbCtrlWrite (v : Word) (s : State) := run (writeTbCtrl v) s
def execTbPhaseOfsWrite (v : Word) (s : State) := run (writePhaseOfs v) s
def execTbAngleRead (s : State) := run tbAngleRead s
def execRefClockStop (s : State) := run refClockStop s
def execRefClockRestart (s : State) := run refClockRestart s
def execAngleEventSet (c : HostCmd) (s : State) := run (hostExec 0x0408 angleEventSet c) s

end Sys2Proof.Machine
end

