-- ==== Sys2Proof/Machine/Integ.lean ====
section
/-! DEFINITION. Integ: verdicts of unit tests and what they set in motion (R314–R319), the scrub (R309). -/
namespace Sys2Proof.Machine

/-! ## Transient counts (R316) -/

def day : Nat := 86400

/-- A unit passes a test an error started: counted; true at the ninth within 24 hours of run time. -/
def countTransient (u : Nat) (d : Dev) : Bool × Dev :=
  let ts := ((Tab.find d.integ.transients u).getD []).filter fun t => decide (runSec d < t + day)
  let ts := ts ++ [runSec d]
  (decide (9 ≤ ts.length), { d with integ := { d.integ with transients := Tab.put d.integ.transients u ts } })

def clearTransients (u : Nat) (d : Dev) : Dev :=
  { d with integ := { d.integ with transients := Tab.del d.integ.transients u } }

/-! ## Lasting verdicts (R317, R319) -/

/-- Out of service, and written to the retirement table. -/
def retire (u : Nat) (d : Dev) : Dev :=
  let put := fun (l : List Nat) => if l.contains u then l else l ++ [u]
  { d with
    integ := { d.integ with retired := put d.integ.retired }
    nvm := { d.nvm with retireTable := put d.nvm.retireTable } }

def logVerdict (u : Nat) (d : Dev) : Dev := logUnit sevFault 0x010 u 1#32 0#32 d

def clusterOfIndex (n : Nat) : Cluster := if n = 0 then .a else .b

/-- An SRAM bank: failing rows take spare rows; beyond the sixteen a reserve bank takes the bank's number; with no
reserve left the bank stays out. -/
def lastBank (u rows : Nat) (d : Dev) : Dev :=
  let used := Tab.get 0 d.integ.spares u + rows
  let d := if used ≤ 16 then { d with integ := { d.integ with spares := Tab.put d.integ.spares u used } }
    else if 0 < d.integ.reserve then
      { d with integ := { d.integ with reserve := d.integ.reserve - 1, spares := Tab.del d.integ.spares u } }
    else retire u d
  let i := unitIndex u
  let d := logVerdict u d
  if i < 32 then lowerHealth [.a] 5 u d else if i < 64 then lowerHealth [.b] 5 u d else d

def lastEngine (u : Nat) (d : Dev) : Dev :=
  let c := clusterOfIndex (unitIndex u / 4)
  let d := abandonEngine c (unitIndex u % 4) (retire u d)
  dropIfBare c (lowerHealth [c] 30 u (logVerdict u d))

def lastZone (u : Nat) (d : Dev) : Dev :=
  lowerHealth [clusterOfIndex (unitIndex u)] 15 u (logVerdict u (retire u d))

/-- 4 KiB pages of TREND that no log and no remap uses. -/
def freeTrendPages (d : Dev) : Nat :=
  let bytes := trendBytes d
  let used := 16 * ((d.pe.trends.map Prod.snd).map (·.capacity)).sum
  (bytes - used) / 4096

/-- A DRAM page: remapped to the highest free page of TREND, or left in use (R317, R319). -/
def lastPage (u : Nat) (d : Dev) : Dev :=
  let page := unitIndex u
  if freeTrendPages d = 0 ∨ 1024 ≤ d.nvm.remapTable.length then
    logUnit sevFault 0x031 u (wd page) 0#32 (logVerdict u d)
  else
    let target := usableMib * 256 - 1 - d.integ.remaps.length
    logVerdict u { d with
      integ := { d.integ with remaps := Tab.put d.integ.remaps page target }
      nvm := { d.nvm with remapTable := Tab.put d.nvm.remapTable page target } }

/-- A waiting urgent request of a retired converter. -/
def dropUrgent (u : Urgent) (code : Nat) (d : Dev) : Dev :=
  match u with
  | .readNow _ (some c) => completeCmd 0x0502 c (fail stRetired (wd code)) d
  | .readNow _ none => emit (.console false "UNIT_RETIRED" []) d
  | _ => d

/-- A converter: no conversions any more; its capturing UI points FAULT. -/
def lastAdc (u : Nat) (d : Dev) : Dev :=
  let c := unitIndex u
  let a := adcOf d c
  let d := retire u d
  let d := setAdc c { a with run := .idle, pending := none, urgents := [], calNext := none } d
  let d := if (jobOf d c).isSome then nextCal c false d else d
  let d := (match a.run with
    | .urgent r _ => dropUrgent r u d
    | _ => d)
  let d := forEach a.urgents (fun r => dropUrgent r.1 u) d
  let d := forRange 48 (fun n d =>
    if uiAdc n == c && (captureSlot d n).isSome then enqueueQuality n qFault (srcField n) d else d) d
  logVerdict u d

/-- The lowest core still in service. -/
def coreInService (d : Dev) : Option Nat := (List.range 16).find? fun c => !retired d (unitCore c)

def portsOfCore (d : Dev) (c : Nat) : List Nat := (List.range 24).filter fun p => (portOf d p).isOpen && (portOf d p).core == c

/-- A protocol core: its ports move to a remaining one. -/
def lastCore (u : Nat) (d : Dev) : Dev :=
  let c := unitIndex u
  let ps := portsOfCore d c
  let d := retire u d
  let d := forEach ps (fun p d =>
    match coreInService d with
    | some n => serveCore p (modPort p (fun x => { x with core := n, held := testing d (unitCore n), scUp := false }) d)
    | none => modPort p (fun x => { x with held := true }) d) d
  lowerHealth [.a, .b] 5 u (logVerdict u d)

/-- Pipelines out of service: one leaves the other alone, both stop the engine (R65). -/
def lastPipes (p0 p1 : Bool) (d : Dev) : Dev :=
  let was := b2n d.pe.p0 + b2n d.pe.p1
  let d := { d with pe := { d.pe with p0 := d.pe.p0 && p0, p1 := d.pe.p1 && p1 } }
  let left := b2n d.pe.p0 + b2n d.pe.p1
  let u := unitPipes
  let d := { d with nvm := { d.nvm with
    retireTable := if d.nvm.retireTable.contains u then d.nvm.retireTable else d.nvm.retireTable ++ [u] } }
  let d := if left = 0 then { d with integ := { d.integ with
      retired := if d.integ.retired.contains u then d.integ.retired else d.integ.retired ++ [u] } } else d
  lowerHealth [.a, .b] (10 * (was - left)) u (logVerdict u d)

/-- The unit is treated as failed without a finding of its own: one pipeline goes, P1 first (R316). -/
def lasting (u rows : Nat) (d : Dev) : Dev :=
  match unitClass u with
  | 1 => lastBank u rows d
  | 2 => lastEngine u d
  | 3 => lastZone u d
  | 4 => lastPage u d
  | 5 => lastAdc u d
  | 7 => lastCore u d
  | 8 => if d.pe.p0 && d.pe.p1 then lastPipes true false d else lastPipes false false d
  | _ => logVerdict u d

/-! ## The end of a test -/

/-- A pass, for the test result at hand; a retest judges retired pipelines too. -/
def passed (d : Dev) (retest : Bool) : TestResult → Bool
  | .pass => true
  | .fail => false
  | .rows n => n == 0
  | .pipelines p0 p1 => if retest then p0 && p1 else (!d.pe.p0 || p0) && (!d.pe.p1 || p1)

/-- What a test held up goes on: the point engine takes operations, a held core resumes its ports. -/
def releaseUnit (u : Nat) (d : Dev) : Dev :=
  match unitClass u with
  | 8 => { d with pe := { d.pe with testing := false } }
  | 7 => forEach (portsOfCore d (unitIndex u)) (fun p d => serveCore p (modPort p (fun x => { x with held := false }) d)) d
  | _ => d

/-- A unit that passes its retest re-enters service with no transients counted (R319). -/
def reenter (u : Nat) (r : TestResult) (d : Dev) : Dev :=
  let d := clearTransients u { d with
    integ := { d.integ with retired := d.integ.retired.filter (· != u) }
    nvm := { d.nvm with retireTable := d.nvm.retireTable.filter (· != u) } }
  if unitClass u = 8 then
    (match r with
     | .pipelines p0 p1 => { d with pe := { d.pe with p0 := p0, p1 := p1 } }
     | _ => { d with pe := { d.pe with p0 := true, p1 := true } })
  else d

/-- The count of a SELF_TEST in a long-operation slot: passed, failed, first failed unit. -/
def noteOp (slot u : Nat) (good : Bool) (d : Dev) : Dev :=
  { d with lop := { d.lop with slots := Tab.upd d.lop.slots slot fun l =>
    { l with
      items := l.items + 1, pos := 0
      r0 := if good then l.r0 + 1#32 else l.r0
      r1 := if good then l.r1 else l.r1 + 1#32
      r2 := if good || l.r1 != 0#32 then l.r2 else wd u } } }

def consoleVerdict (u : Nat) (good : Bool) (d : Dev) : Dev :=
  if good then emit (.console true "PASS" (if unitClass u = 8 then [b2n d.pe.p0 + b2n d.pe.p1] else [])) d
  else emit (.console false "UNIT_RETIRED" []) d

def rowsOf : TestResult → Nat
  | .rows n => n
  | _ => 1

/-- A retest of the pipelines that some fail: those stay out, each lowering HEALTH again; the others serve (R319). -/
def retestPipes (p0 p1 : Bool) (d : Dev) : Dev :=
  let u := unitPipes
  let out := !p0 && !p1
  let d := { d with
    pe := { d.pe with p0 := p0, p1 := p1 }
    integ := { d.integ with retired := d.integ.retired.filter (· != u) ++ (if out then [u] else []) } }
  lowerHealth [.a, .b] (10 * (b2n (!p0) + b2n (!p1))) u (logVerdict u d)

/-- A failing verdict; a unit that fails its retest stays retired and lowers HEALTH again. -/
def failVerdict (u : Nat) (t : UnitTest) (r : TestResult) (d : Dev) : Dev :=
  if t.retest then
    match r with
    | .pipelines p0 p1 => retestPipes p0 p1 d
    | _ => if unitClass u = 8 then retestPipes false false d else lasting u (rowsOf r) d
  else match r with
    | .pipelines p0 p1 => lastPipes p0 p1 d
    | _ => lasting u (rowsOf r) d

/-- A passing verdict, logged (R317's field note); a transient where an error started the test. -/
def passVerdict (u : Nat) (t : UnitTest) (r : TestResult) (d : Dev) : Dev :=
  let d := logUnit sevNotice 0x010 u 0#32 0#32 d
  if t.retest then reenter u r d
  else if t.byError && unitClass u != 6 then
    let x := countTransient u d
    if x.1 then lasting u 1 x.2 else x.2
  else d

def testEnd (u : Nat) (r : TestResult) (d : Dev) : Dev :=
  match Tab.find d.integ.tests u with
  | none => d
  | some t =>
    let d := { d with integ := { d.integ with tests := Tab.del d.integ.tests u } }
    let good := passed d t.retest r
    let d := releaseUnit u d
    let d := if good then passVerdict u t r d else failVerdict u t r d
    let d := (match t.slot with
      | some s => noteOp s u good d
      | none => d)
    let d := if t.console then consoleVerdict u good d else d
    let d := (match t.reinstate with
      | some c => if good && !retired d u then reinstate c d else d
      | none => d)
    settle d

def selfTestComplete (u : Word) (r : TestResult) (d : Dev) : Dev := testEnd u.toNat r d

/-- A test that has not ended in four times its time counts as failed (R314). -/
def selfTestTimeout (u : Word) (d : Dev) : Dev := testEnd u.toNat .fail d

/-- Point record `i` of the POINT region has lost a word: its check no longer holds, and its next reader finds it so
(R51, R62, R312). -/
def losePoint (i : Nat) (d : Dev) : Dev :=
  let n := (d.pe.plan.map (·.points)).getD 0
  let id := if i < n then i else predefBase + (i - n)
  match recOf d id with
  | some r => { d with pe := { d.pe with recs := Tab.put d.pe.recs id { r with check := ~~~pointCheck id r.value (recQ r) r.kind } } }
  | none => d

/-- A 64-bit word of a DRAM page holds an error that cannot be corrected: the point or zone record it belongs to is lost
(R309, R312). What lies where in the other regions is not stated (log entry 191). -/
def loseWord (page w : Nat) (d : Dev) : Dev :=
  let sizes := (d.pe.plan.map regionMib).getD []
  let within := fun i => decide (regionPage d i ≤ page ∧ page < regionPage d i + 256 * sizes.getD i 0)
  if within 0 then losePoint (128 * page + w / 4) d
  else if within 4 then
    { d with zones := { d.zones with
      zones := Tab.upd d.zones.zones (8 * (page - regionPage d 4) + w / 64) fun z => { z with sound := false } } }
  else d

/-- The scrub finds an error in a DRAM page or an SRAM bank: a single-bit one is corrected and counted, a double-bit one
loses its word; either tests the unit (R309, R314). -/
def scrub (w : Word) (double : Option (Fin 512)) (d : Dev) : Dev :=
  let u := w.toNat
  if (unitClass u = 4 ∨ unitClass u = 1) ∧ unitKnown u then
    settle (errorTest u (match double with
      | none => { d with integ := { d.integ with ecc := Tab.put d.integ.ecc u (Tab.get 0 d.integ.ecc u + 1) } }
      | some k => if unitClass u = 4 then loseWord (unitIndex u) k.val d else d))
  else d

/-- The end of a diagnostic cycle, which is its channel's targeted test where one runs (R236, R314). -/
def diagnosticCycleEnd (ch : Nat) (r : DiagReading) (d : Dev) : Dev :=
  let good := (diagVerdict d ch r).1.isNone
  testEnd (at' 24 6 + ch) (if good then .pass else .fail) (diagnosticCycle ch r d)

/-! ## Commands -/

def execDiagnosticCycleEnd (ch : Fin 48) (r : DiagReading) (s : State) := run (diagnosticCycleEnd ch.val r) s

def execScrub (unit : Word) (double : Option (Fin 512)) (s : State) := run (scrub unit double) s
def execSelfTestComplete (unit : Word) (result : TestResult) (s : State) := run (selfTestComplete unit result) s
def execSelfTestTimeout (unit : Word) (s : State) := run (selfTestTimeout unit) s

end Sys2Proof.Machine
end

