-- ==== Sys2Proof/Machine/Ports.lean ====
section
/-! DEFINITION. Ports: port images and the port map (R255–R259, R469), the classifier and raw forwarding (R263, R264),
quench (R265), BACnet and Modbus as the protocol cores serve them (R259–R262). -/
namespace Sys2Proof.Machine

/-! ## Port images (R257) -/

def imgServices (b : List Byte) : Nat := fld (imgWord b 0) 7 0

def imgBacnet (b : List Byte) : Bool := imgService b 0 || imgService b 1 || imgProto b == 2
def imgModbus (b : List Byte) : Bool := imgService b 2 || imgService b 3 || imgProto b == 3

def nz (b : List Byte) (o : Nat) : Bool := imgWord b o != 0#32

def linkFault (p : Nat) (b : List Byte) : Bool :=
  let w := imgWord b 4
  if p < 4 then decide (fld w 31 2 ≠ 0)
  else if p < 6 then decide (w ≠ 0#32)
  else if p < 8 then decide (fld w 31 24 ≠ 0 ∨ fld w 15 8 < 2 ∨ fld w 23 16 < 20)
  else
    let r := w.toNat
    match imgProto b with
    | 2 => !([9600, 19200, 38400, 57600, 76800, 115200].contains r)
    | 4 => decide (r < 500000 ∨ 4000000 < r)
    | _ => decide (r < 9600 ∨ 4000000 < r)

def vlanFault (b : List Byte) : Bool :=
  let w := imgWord b 8
  if imgProto b ≠ 1 then decide (w ≠ 0#32)
  else decide (fld w 31 16 ≠ 0) || (bit w 12 && decide (fld w 11 0 = 0 ∨ fld w 11 0 = 4095))

def trunkFault (b : List Byte) : Bool :=
  let w := imgWord b 0x1C
  match imgProto b with
  | 2 => decide (127 < fld w 7 0 ∨ 127 < fld w 15 8 ∨ fld w 23 16 = 0 ∨ fld w 31 24 ≠ 0)
  | 3 => decide (fld w 15 0 < 10 ∨ 5000 < fld w 15 0 ∨ fld w 31 24 ≠ 0)
  | _ => decide (w ≠ 0#32)

def rawBase (b : List Byte) : Nat := addr64 (imgWord b 0x28) (imgWord b 0x2C)
def rawCount (b : List Byte) : Nat := fld (imgWord b 0x30) 15 0
def rawCq (b : List Byte) : Nat := fld (imgWord b 0x30) 20 16

def rawFault (b : List Byte) (d : Dev) : Option Nat :=
  if !imgService b 6 then (if nz b 0x28 || nz b 0x2C then some 0x28 else if nz b 0x30 then some 0x30 else none)
  else if rawBase b % 2048 ≠ 0 ∨ !canWrite d (rawBase b) (2048 * rawCount b) then some 0x28
  else if rawCount b < 16 ∨ 4096 < rawCount b ∨ 2 ^ Nat.log2 (rawCount b) ≠ rawCount b then some 0x30
  else if rawCq b = 0 ∨ fld (imgWord b 0x30) 31 21 ≠ 0 then some 0x30
  else none

/-- The first field of an image that breaks its range, or that names something the protocol does not use. -/
def imageFault (p : Nat) (b : List Byte) (d : Dev) : Option Nat :=
  let k := imgProto b
  let protoOk := if p < 8 then k == 1 else k == 2 || k == 3 || k == 4
  let svcOk := if p < 8 then !imgService b 7 || decide (6 ≤ p) else imgServices b == 0
  if !protoOk || !svcOk || decide (fld (imgWord b 0) 19 8 ≠ 0) then some 0
  else if linkFault p b then some 4
  else if vlanFault b then some 8
  else match [0xC, 0x10, 0x14].find? fun o => k != 1 && nz b o with
    | some o => some o
    | none =>
      if (if imgBacnet b then decide (4194302 < (imgWord b 0x18).toNat) else nz b 0x18) then some 0x18
      else if trunkFault b then some 0x1C
      else if (if 8 ≤ p ∧ k ≠ 4 then decide (3 ≤ fld (imgWord b 0x20) 1 0 ∨ fld (imgWord b 0x20) 31 3 ≠ 0) else nz b 0x20)
      then some 0x20
      else if (if imgService b 1 then decide (1024 ≤ (imgWord b 0x24).toNat) else nz b 0x24) then some 0x24
      else match rawFault b d with
        | some o => some o
        | none => if nz b 0x34 then some 0x34 else if nz b 0x38 then some 0x38 else none

def openPorts (d : Dev) : List Nat := (List.range 24).filter fun p => (portOf d p).isOpen

/-- Another open port gives another BACNET_DEV (R258), or serves the same Kwela trunk (R266). -/
def openConflict (p : Nat) (b : List Byte) (d : Dev) : Bool :=
  (imgBacnet b && (openPorts d).any fun q =>
    imgBacnet (portOf d q).image && imgWord (portOf d q).image 0x18 != imgWord b 0x18) ||
  (imgProto b == 4 && ((p == 22 && t1sKwela d 6) || (p == 23 && t1sKwela d 7))) ||
  (imgService b 7 && (portOf d (p + 16)).isOpen && (portOf d (p + 16)).proto == 4)

/-! ## The port map (R257–R259) -/

def mapEntryAt (b : List Byte) (i : Nat) : MapEntry :=
  let o := 64 + 16 * i
  { w0 := wordAt b o, w1 := wordAt b (o + 4), w2 := wordAt b (o + 8), w3 := wordAt b (o + 12) }

def mapUnit (e : MapEntry) : Nat := fld e.w1 31 24
def mapAddr (e : MapEntry) : Nat := fld e.w1 15 0
def mapInst (e : MapEntry) : Nat := fld e.w1 21 0

/-- The offset in an entry of its first field at fault. -/
def entryBad (e : MapEntry) : Option Nat :=
  let r := mapRole e
  if r = 0 ∨ 4 < r then some 0
  else if (if r = 3 ∨ r = 4 then decide (24 ≤ mapPort e) else mapPort e != 0) then some 0
  else if 0x500000 ≤ mapPoint e then some 0
  else if r = 1 ∧ fld e.w1 31 22 ≠ 0 then some 4
  else if r ≠ 1 ∧ 3 < mapFormat e then some 8
  else if fld e.w2 23 16 ≠ 0 then some 8
  else if r = 3 ∧ fld e.w2 15 0 = 0 then some 8
  else none

/-- Two BACnet objects of one type and one instance number. -/
def sameObject (d : Dev) (e f : MapEntry) : Bool :=
  mapRole e == 1 && mapRole f == 1 && mapInst e == mapInst f &&
  (recOf d (mapPoint e)).map Rec.kind == (recOf d (mapPoint f)).map Rec.kind

/-- The first entry that may not be loaded. -/
def mapFault (es : List MapEntry) (d : Dev) : Option Done :=
  (List.range es.length).findSome? fun i =>
    match es[i]? with
    | none => none
    | some e =>
      match entryBad e with
      | some o => some (badBuf (64 + 16 * i + o))
      | none =>
        if (recOf d (mapPoint e)).isNone then some (fail stNotFound (wd (mapPoint e)))
        else if (es.take i).any (sameObject d e) then some (fail stConflict)
        else none

def dropMapSubs (d : Dev) : Dev :=
  let bound := Tab.keys d.ports.map
  let hits := d.pe.subs.filterMap fun p => match p.2 with
    | .sub s => if s.cls = 2 ∧ bound.contains (fld s.target 27 5) then some (p.1, s.point) else none
    | _ => none
  forEach hits (fun h d => dropSub h.1 h.2 d) { d with ports := { d.ports with map := [] } }

/-- Load entry `i`: its subscription, under its own port or the one that opens, and for MODBUS_WRITE the value as it
stands. -/
def loadEntry (p : Nat) (i : Nat) (e : MapEntry) (d : Dev) : Dev :=
  let q := if mapRole e = 3 ∨ mapRole e = 4 then mapPort e else p
  let d := { d with ports := { d.ports with map := Tab.put d.ports.map i e } }
  match recOf d (mapPoint e) with
  | none => d
  | some r =>
    let d := ((addSub 2 (mapPoint e) (wd (at' 5 i + q)) r d).map Prod.snd).getD d
    if mapRole e = 4 then deliver (mapPoint e) r 0#16 d else d

def loadMap (p : Nat) (es : List MapEntry) (d : Dev) : Dev :=
  forEach (List.range es.length) (fun i d => match es[i]? with
    | some e => loadEntry p i e d
    | none => d) (if es.isEmpty then d else dropMapSubs d)

/-! ## Registers (R257–R265) -/

def portStatus (d : Dev) (p : Nat) : Word :=
  let x := portOf d p
  wd (at' 12 x.core + at' 8 x.proto + at' 7 (b2n x.scUp) + at' 6 (b2n x.addrOk) + at' 5 (b2n x.qTx) + at' 4 (b2n x.qFwd) +
    at' 2 (x.speed % 4) + at' 1 (b2n x.linkUp) + b2n x.isOpen)

def portDrops (d : Dev) (p : Nat) : Word := let x := portOf d p; wd (x.dropRaw * 65536 + x.dropCore)
def portRefusals (d : Dev) (p : Nat) : Word := let x := portOf d p; wd (x.guardRefused * 65536 + x.checkFail)

/-! ## PORT commands -/

/-- The port as PORT_OPEN leaves it; switches and counts stay. -/
def openedPort (p : Nat) (b : List Byte) (core : Nat) (x : Port) : Port :=
  let static := imgProto b == 1 && !imgService b 4
  { x with
    image := b.take 64, core := core, proto := imgProto b, isOpen := true, scUp := false, scHub := 0
    ip4 := if static then imgWord b 0xC else 0#32, mask4 := if static then imgWord b 0x10 else 0#32
    gw4 := if static then imgWord b 0x14 else 0#32, prefix6 := none
    addrOk := static && imgWord b 0xC != 0#32
    linkUp := x.linkUp || decide (8 ≤ p)
    nextBuf := 0, usedBufs := [], coreQ := [], rawQ := [], dropSince := 0, held := false, waitTx := [] }

def portOpen (c : HostCmd) (d : Dev) : Option Done × Dev :=
  let p := c.target.toNat
  let b := c.buf
  let n := c.count.toNat
  if 24 ≤ p then (some (badField 8), d)
  else if shortBuf c 64 then (some (badField 0x28), d)
  else if byteAt b 3 ≠ 1 then (some (fail stVersion (wd (byteAt b 3))), d)
  else if crc32c (b.take 0x3C) ≠ wordAt b 0x3C then (some (fail stCheckFail (crc32c (b.take 0x3C))), d)
  else if (portOf d p).isOpen then (some (fail stConflict), d)
  else match imageFault p b d with
    | some o => (some (badBuf o), d)
    | none =>
      let first := (imgBacnet b || imgModbus b) &&
        !(openPorts d).any fun q => imgBacnet (portOf d q).image || imgModbus (portOf d q).image
      if n ≠ 0 ∧ !first ∨ 1048576 < n then (some (badField 0xC), d)
      else if shortBuf c (64 + 16 * n) then (some (badField 0x28), d)
      else if openConflict p b d then (some (fail stConflict), d)
      else
        let es := (List.range n).map (mapEntryAt b)
        match mapFault es d with
        | some x => (some x, d)
        | none =>
          if n ≠ 0 ∧ subsFree (dropMapSubs d) < n then (some (fail stNoCapacity), d)
          else match coreInService d with
            | none => (some (fail stRetired (wd (unitCore 0))), d)
            | some k =>
              let d := loadMap p es (modPort p (fun x => { openedPort p b k x with held := testing d (unitCore k) }) d)
              (some (okWith (portStatus d p)), d)

/-- The resources of a port are those its SOURCE owns (R32). -/
def closePort (p : Nat) (d : Dev) : Dev :=
  modPort p (fun x => { x with
    image := [], core := 0, proto := 0, isOpen := false, scUp := false, scHub := 0, addrOk := false, ip4 := 0#32, mask4 := 0#32, gw4 := 0#32
    prefix6 := none, held := false
    linkUp := x.linkUp && decide (p < 8), coreQ := [], rawQ := [], usedBufs := [], nextBuf := 0, waitTx := [] }) d

def portClose (c : HostCmd) (d : Dev) : Option Done × Dev :=
  let p := c.target.toNat
  if 24 ≤ p then (some (badField 8), d)
  else if !(portOf d p).isOpen then (some (fail stConflict), d)
  else (some ok, closePort p d)

def portSend (c : HostCmd) (d : Dev) : Option Done × Dev :=
  let p := c.target.toNat
  if 8 ≤ p then (some (badField 8), d)
  else if c.bufLen < 60 ∨ 1518 < c.bufLen then (some (badField 0x28), d)
  else if !(portOf d p).isOpen then (some (fail stConflict), d)
  else if (portOf d p).qTx then (some (fail stQuenched c.target), d)
  else (some ok, sendLater p 0 ((tagged d p c.buf).map BitVec.toNat) d)

def portQuench (c : HostCmd) (d : Dev) : Option Done × Dev :=
  let p := c.target.toNat
  if 24 ≤ p then (some (badField 8), d)
  else (some ok, modPort p (fun x => { x with qFwd := bit c.p0 0, qTx := bit c.p0 1 }) d)

/-- Free values for words whose content the manual does not lay out (log entry 7). -/
def freeWords : Nat → Dev → List Word × Dev
  | 0, d => ([], d)
  | k + 1, d => let r := freeWords k (drew d); (freeWord d :: r.1, r.2)

def portStats (c : HostCmd) (d : Dev) : Option Done × Dev :=
  let p := c.target.toNat
  if 24 ≤ p then (some (badField 8), d)
  else if shortBuf c 64 then (some (badField 0x28), d)
  else
    let f := freeWords 13 d
    (some (okWith (portStatus d p)),
      outBuf c (wordsBytes ([portStatus d p, portDrops d p, portRefusals d p] ++ f.1)) f.2)

/-! ## Receiving (R255, R263) -/

/-- A service of the port takes frames of this kind. -/
def serves (x : Port) (k : FrameKind) : Bool :=
  match x.proto, k with
  | 1, .arp | 1, .icmp => true
  | 1, .dhcp => imgService x.image 4
  | 1, .neighbour => imgService x.image 5
  | 1, .udp47808 => imgService x.image 0
  | 1, .tcp502 => imgService x.image 2 || imgService x.image 3
  | 1, .tlsSc => imgService x.image 1
  | 1, .kwela => imgService x.image 7
  | 2, .mstp | 3, .modbusRtu | 4, .kwela => true
  | _, _ => false

def vlanOk (x : Port) (f : Frame) : Bool :=
  let w := imgWord x.image 8
  if bit w 12 then f.vid == some (BitVec.ofNat 12 (fld w 11 0)) else f.vid.isNone || f.vid == some 0#12

def dropRawFrame (x : Port) : Port := { x with dropRaw := up16 x.dropRaw, dropSince := up16 x.dropSince }

/-- The classifier takes a frame (R263). One of the TLS connection to an SC hub shows that the connection stands (log entry
169). -/
def frameReceived (p : Nat) (f : Frame) (d : Dev) : Dev :=
  let x := portOf d p
  if !x.isOpen then d
  else if x.proto = 1 ∧ 1522 < f.len then setPort p { x with rxErrors := x.rxErrors + 1 } d
  else if x.proto = 1 ∧ !vlanOk x f then d
  else if serves x f.kind then
    (if x.coreQ.length < 256 then
      serveCore p (setPort p { x with coreQ := x.coreQ ++ [f], scUp := x.scUp || f.kind == .tlsSc && !x.held } d)
     else setPort p { x with dropCore := up16 x.dropCore } d)
  else if !imgService x.image 6 then d
  else if x.qFwd || d.hif.sluice || decide (256 ≤ x.rawQ.length) then setPort p (dropRawFrame x) d
  else setPort p { x with rawQ := x.rawQ ++ [f] } d

/-! ## Raw forwarding (R264) -/

/-- The entry at a tail index has been consumed: the head has passed it. -/
def entryConsumed (r : Ring) (t : Nat) : Bool := decide (ringUsed r ≤ (t + depth r - r.head) % depth r)

/-- Buffers whose event the host has consumed are free again. -/
def freeBufs (p : Nat) (d : Dev) : Dev :=
  let x := portOf d p
  let r := cqOf d (rawCq x.image)
  setPort p { x with usedBufs := x.usedBufs.filter fun u => !entryConsumed r u.2 } d

def rawEvent (p : Nat) (x : Port) (f : Frame) : Event :=
  { tag := wd (0x07000000 + at' 16 p + x.nextBuf), r0 := wd f.len, r1 := wd (at' 16 x.dropSince), r2 := f.stamp.cycle,
    hi5 := 0, w6 := wd f.stamp.angle.toNat }

/-- The oldest queued raw frame is posted. Forwarding that is quenched drops arriving frames; those queued post as buffers
free, as the worked example shows (log entry 171). -/
def rawFramePost (p : Nat) (d : Dev) : Dev :=
  let d := freeBufs p d
  let x := portOf d p
  let n := rawCq x.image
  let a := rawBase x.image + 2048 * x.nextBuf
  match x.rawQ with
  | [] => d
  | f :: rest =>
    if !x.isOpen || x.usedBufs.any (fun u => u.1 == x.nextBuf) || !eventRoom d n || !canWrite d a 2048 then d
    else
      let y := { x with
        rawQ := rest, dropSince := 0, nextBuf := (x.nextBuf + 1) % max 1 (rawCount x.image)
        usedBufs := x.usedBufs ++ [(x.nextBuf, (cqOf d n).tail)] }
      postEvent n (rawEvent p x f) (hostWrite a (f.data.take 2048) (setPort p y d))

/-! ## BACnet (R261) -/

def bacnetPort (x : Port) : Bool := x.isOpen && imgBacnet x.image && !x.held

def maxApdu (x : Port) : Nat := if x.proto = 2 then 480 else 1476

/-- The map entry of an object. -/
def objectOf (d : Dev) (kind num : Nat) : Option (Nat × MapEntry) :=
  d.ports.map.find? fun e =>
    mapRole e.2 == 1 && mapInst e.2 == num && ((recOf d (mapPoint e.2)).map Rec.kind) == some kind

/-- Kinds of BACnet messages sent: 0 values, 1 COV notification, 2 alarm, 3 Abort, 4 I-Am, 5 I-Have, 6 acknowledgement,
7 Error, 8 Reject. A bare value list leaves as kind 9, since 0 stands for a frame. -/
def bacReply (p kind : Nat) (xs : List Nat) (d : Dev) : Dev := bacSend p kind xs d

/-- Error of class property, code write-access-denied (R58), by BACnet's own numbers (PRESUMED, log entry 168). -/
def writeDenied : List Nat := [2, 40]

def deviceInstance (d : Dev) (p : Nat) : Nat := (imgWord (portOf d p).image 0x18).toNat

/-- Values of a read, each with its check verified by the port encoder (R260). -/
def readObjects (p : Nat) : List (Nat × Nat) → Dev → List Nat × Dev
  | [], d => ([], d)
  | o :: rest, d =>
    match objectOf d o.1 o.2 with
    | none => readObjects p rest d
    | some e =>
      let x := encodeOk p (mapPoint e.2) d
      let y := readObjects p rest x.2
      match x.1 with
      | some r => (mapPoint e.2 :: r.value.toNat :: recQ r :: y.1, y.2)
      | none => y

def bacSource (p dev : Nat) : Word := srcWord 8 (at' 22 p + dev % 4194304)

/-- A remote client's operation on a point: compared, committed behind what has arrived before, and delivered (R54, R56,
R58, R64). -/
def remoteOp (p id : Nat) (act : PointAct) (src : Word) (d : Dev) : PRes × Dev :=
  let op : PointOp := { id := id, act := act, stamp := now d, source := src, writer := .remote p }
  let x := compared (perform op) (commitQueued op d)
  match x.1 with
  | none => (.hwFault, x.2)
  | some .stored => (.stored, (drainPoint id none x.2).2)
  | some r => (r, x.2)

/-- A write of Present_Value: at a level for a commandable point, NULL relinquishing it (R58); outside one at level 0. -/
def bacWrite (p id : Nat) (v : Option Word) (prio dev : Nat) (d : Dev) : PRes × Dev :=
  let src := bacSource p dev
  let cmd := ((recOf d id).map commandable).getD false
  match v with
  | none => remoteOp p id (.relinquish prio) src d
  | some w =>
    let k := ((recOf d id).map Rec.kind).getD 0
    remoteOp p id (.write w qGood (some (pointCheck id w qGood k)) (if cmd then prio else 0)) src d

/-- A write of Out_Of_Service (R55, R56): clearing it sends an output's current value to its stage. -/
def changeService (p id : Nat) (v : Bool) (d : Dev) : Bool × Dev :=
  match recOf d id with
  | none => (false, d)
  | some r =>
    if guardedOf r && v != outOfService r then (false, refuseGuarded (.remote p) d)
    else if !checkOk id r then (false, failRecord id r d)
    else
      let n := setStBit r 9 v
      let d := afterStore id (putRec id r n d)
      let d := if commandable r && outOfService r && !v then (drainPoint id none (deliver id n 0#16 d)).2 else d
      (true, d)

def setOutOfService (p id : Nat) (v : Bool) (d : Dev) : Bool × Dev :=
  let x := compared (changeService p id v) (commitQueued (engineOp id (.quality 0) d) d)
  (x.1.getD false, x.2)

/-- A time synchronisation performs RTC_SET while BACNET_SYNC is 1; local time goes through rule 0 (R168). -/
def timeSync (p : Nat) (isLocal : Bool) (date time : Word) (d : Dev) : Dev :=
  if !bit d.clk.ctrl 9 then modPort p (fun x => { x with syncDropped := x.syncDropped + 1 }) d
  else if !isLocal then setRtc date time d
  else
    let day := daysToMonth (fld date 31 24) (max 1 (fld date 19 16)) + (max 1 (fld date 12 8) - 1)
    let l : Int := (day * 86400 + fld time 20 16 * 3600 + fld time 13 8 * 60 + fld time 5 0 : Nat)
    let u := utcOfLocal (ruleOf d 0) l
    let x := dateOfDay (u / 86400)
    let s := (u % 86400).toNat
    setRtc (wd (at' 24 x.year.toNat + at' 16 x.month + at' 8 x.day + x.wday))
      (wd (at' 16 (s / 3600) + at' 8 (s / 60 % 60) + s % 60)) d

def bindCov (i : Nat) (f : List Nat → List Nat) (d : Dev) : Dev :=
  { d with ports := { d.ports with map := Tab.upd d.ports.map i fun e => { e with bindings := f e.bindings } } }

def ackOrError (p : Nat) (good : Bool) (d : Dev) : Dev := bacReply p (if good then 6 else 7) [] d

/-- A write that the priority array has no place for: priority 6, or NULL to a point without one (R58). -/
def deniedWrite (d : Dev) (id : Nat) (v : Option Word) (prio : Nat) : Bool :=
  let cmd := ((recOf d id).map commandable).getD false
  if cmd then prio == 6 else v.isNone

/-- Trend samples leave with their checks verified (R260): one that fails is counted and not sent. -/
def sendSamples (p id : Nat) : List Sample → Dev → List Nat × Dev
  | [], d => ([], d)
  | s :: rest, d =>
    let k := ((recOf d id).map Rec.kind).getD 0
    if decide (s.quality < 8) && s.check == pointCheck id s.value s.quality k then
      let y := sendSamples p id rest d
      ((sampleBytes s).map BitVec.toNat ++ y.1, y.2)
    else
      let d := modPort p (fun x => { x with checkFail := up16 x.checkFail }) d
      sendSamples p id rest (testSource id (((recOf d id).map (·.source)).getD 0#32) d)

/-- Points whose limit block is not in NORMAL, or that have a transition to acknowledge, with the block's state (R80). -/
def eventStates (d : Dev) : List (Nat × Nat) :=
  let off := d.pe.subs.filterMap fun p => match p.2 with
    | .limit l => if limitState l ≠ 0 then some (l.point, limitState l) else none
    | _ => none
  let open' := ((d.pe.alarms.filter fun a => !a.acked).map (·.point)).eraseDups
  off ++ (open'.filter fun id => !(off.any fun x => x.1 == id)).map fun id => (id, 0)

def serveBacnet (p : Nat) (req : BacReq) (d : Dev) : Dev :=
  let x := portOf d p
  match req with
  | .read objs size =>
    if maxApdu x < size then bacReply p 3 [] d
    else
      let y := readObjects p objs d
      if objs.any (fun o => (objectOf d o.1 o.2).isSome) then bacReply p 9 y.1 y.2 else bacReply p 7 [] d
  | .writeValue kind num v prio dev =>
    match objectOf d kind num with
    | none => bacReply p 7 [] d
    | some e =>
      if deniedWrite d (mapPoint e.2) v prio then bacReply p 7 writeDenied d
      else
        let y := bacWrite p (mapPoint e.2) v prio dev d
        ackOrError p (y.1 == .stored) y.2
  | .writeOutOfService kind num v _ =>
    match objectOf d kind num with
    | none => bacReply p 7 [] d
    | some e => let y := setOutOfService p (mapPoint e.2) v d; ackOrError p y.1 y.2
  | .subscribeCov kind num b =>
    match objectOf d kind num with
    | none => bacReply p 7 [] d
    | some e =>
      let key := 4096 * b + p
      let d := bindCov e.1 (fun l => if l.contains key then l else l ++ [key]) d
      let d := modEntry e.1 (fun e => { e with unsent := e.unsent.erase key ++ [key] }) (ackOrError p true d)
      if portWaits d p then d else sendUnsent p d
  | .cancelCov kind num b =>
    match objectOf d kind num with
    | none => bacReply p 7 [] d
    | some e => ackOrError p true (bindCov e.1 (fun l => l.filter (· != 4096 * b + p)) d)
  | .whoIs => sendLater p 4 [deviceInstance d p] d
  | .whoHas kind num => if (objectOf d kind num).isSome then sendLater p 5 [deviceInstance d p, kind, num] d else d
  | .timeSync l date time => timeSync p l date time d
  | .readRange log first count size =>
    match Tab.find d.pe.trends log with
    | none => bacReply p 7 [] d
    | some t =>
      if maxApdu x < size then bacReply p 3 [] d
      else
        let y := sendSamples p t.point (samplesFrom t first count) d
        bacReply p 9 y.1 y.2
  | .ackAlarm kind num toW s =>
    match objectOf d kind num with
    | none => bacReply p 7 [] d
    | some e =>
      match ackAlarm (mapPoint e.2) toW s d with
      | some d => ackOrError p true d
      | none => ackOrError p false d
  | .eventInfo size =>
    if maxApdu x < size then bacReply p 3 [] d
    else bacReply p 9 ((eventStates d).flatMap fun e => [e.1, e.2]) d
  | .segmented => bacReply p 3 [] d
  | .unsupported => bacReply p 8 [] d

/-- Requests that the point engine takes part in. -/
def needsEngine : BacReq → Bool
  | .read _ _ | .writeValue _ _ _ _ _ | .writeOutOfService _ _ _ _ | .subscribeCov _ _ _ => true
  | _ => false

/-- A request is served. While the pipelines are tested one that needs them waits; with none in service it is answered with
an Error (R65). -/
def bacnetRequest (p : Nat) (req : BacReq) (d : Dev) : Dev :=
  if !bacnetPort (portOf d p) || needsEngine req && d.pe.testing then d
  else if needsEngine req && !pipesServe d then settle (bacReply p 7 [] (takeCore p [.udp47808, .tlsSc, .mstp] d))
  else settle (serveBacnet p req (takeCore p [.udp47808, .tlsSc, .mstp] d))

/-! ## Modbus (R259, R262) -/

/-- A point value from an entry's registers, by its FORMAT; none when their number is wrong. -/
def decodeRegs (e : MapEntry) (rs : List Half) : Option Word :=
  match mapFormat e, rs with
  | 0, [h, l] => some (wd (h.toNat * 65536 + l.toNat))
  | 1, [r] => some (F32.mul (F32.ofInt (sgn 16 r.toNat)) e.w3)
  | 2, [r] => some (F32.mul (F32.ofNat r.toNat) e.w3)
  | 3, [r] => some (if r = 0#16 then F32.zero else F32.one)
  | _, _ => none

def entryRegs (e : MapEntry) : Nat := if mapFormat e = 0 then 2 else 1

/-- Table a function code reaches. -/
def fcTable : Nat → Nat
  | 1 | 5 | 15 => 0
  | 2 => 1
  | 4 => 2
  | _ => 3

def fcWrites (fc : Nat) : Bool := fc == 5 || fc == 6 || fc == 15 || fc == 16

/-- The MODBUS_SERVER entry that starts at an address. -/
def serverEntry (d : Dev) (unit table addr : Nat) : Option MapEntry :=
  (d.ports.map.find? fun e =>
    mapRole e.2 == 2 && mapUnit e.2 == unit && mapTable e.2 == table && mapAddr e.2 == addr).map Prod.snd

/-- The entry that covers an address, with the register's place in it. -/
def serverCover (d : Dev) (unit table addr : Nat) : Option (MapEntry × Nat) :=
  match serverEntry d unit table addr with
  | some e => some (e, 0)
  | none =>
    match (if addr = 0 then none else serverEntry d unit table (addr - 1)) with
    | some e => if entryRegs e = 2 then some (e, 1) else none
    | none => none

def modReply (p : Nat) (r : ModReq) (body : List Byte) (d : Dev) : Dev :=
  modSend p ([BitVec.ofNat 8 r.unit, BitVec.ofNat 8 r.fc] ++ body) d

def modException (p : Nat) (r : ModReq) (code : Nat) (d : Dev) : Dev :=
  modSend p [BitVec.ofNat 8 r.unit, BitVec.ofNat 8 (r.fc + 128), BitVec.ofNat 8 code] d

/-- Registers read from `addr` on; a value whose check fails is not sent, nor the response with it. -/
def serveRead (p unit table : Nat) : Nat → Nat → Dev → Option (List Nat) × Dev
  | _, 0, d => (some [], d)
  | addr, k + 1, d =>
    match serverCover d unit table addr with
    | none => (none, d)
    | some (e, i) =>
      let x := encodeOk p (mapPoint e) d
      match x.1 with
      | none => (none, x.2)
      | some r =>
        let v := mapRegs e r.value x.2
        let y := serveRead p unit table (addr + 1) k v.2
        (y.1.map fun l => v.1.getD i 0 :: l, y.2)

/-- Coils as a byte string, least significant bit first. -/
def packBits : Nat → List Nat → List Byte
  | 0, _ => []
  | k + 1, l =>
    BitVec.ofNat 8 ((List.range 8).foldl (fun s i => s + (if l.getD i 0 = 0 then 0 else 2 ^ i)) 0) :: packBits k (l.drop 8)

/-- Writable: commandable and not GUARDED (R262). -/
def modWritable (d : Dev) (e : MapEntry) : Bool :=
  ((recOf d (mapPoint e)).map fun r => commandable r && !guardedOf r).getD false

def modSource (p unit : Nat) : Word := srcWord 9 (at' 22 p + unit % 256)

/-- Entries covered by a write of values from `addr` on, each with its registers; none when one is not covered whole. -/
def writeGroups (d : Dev) (unit table : Nat) : Nat → Nat → List Half → Option (List (MapEntry × List Half))
  | 0, _, _ => some []
  | _, _, [] => some []
  | k + 1, addr, v :: vs =>
    match serverEntry d unit table addr with
    | none => none
    | some e =>
      let n := entryRegs e
      if (v :: vs).length < n then none
      else (writeGroups d unit table k (addr + n) ((v :: vs).drop n)).map fun l => (e, (v :: vs).take n) :: l

/-- A server write goes to level 16 of a commandable point; Modbus carries no priority. -/
def modWrite (p unit : Nat) (g : MapEntry × List Half) (d : Dev) : Bool × Dev :=
  let id := mapPoint g.1
  match decodeRegs g.1 g.2, recOf d id with
  | some v, some r =>
    let x := remoteOp p id (.write v qGood (some (pointCheck id v qGood r.kind)) 16) (modSource p unit) d
    (x.1 == .stored, x.2)
  | _, _ => (false, d)

def modWrites (p unit : Nat) : List (MapEntry × List Half) → Dev → Bool × Dev
  | [], d => (true, d)
  | g :: rest, d =>
    let x := modWrite p unit g d
    let y := modWrites p unit rest x.2
    (x.1 && y.1, y.2)

def refuseAll (p : Nat) (gs : List (MapEntry × List Half)) (d : Dev) : Dev :=
  forEach gs (fun g d => if ((recOf d (mapPoint g.1)).map guardedOf).getD false then refuseGuarded (.remote p) d else d) d

def serveModbus (p : Nat) (r : ModReq) (d : Dev) : Dev :=
  let table := fcTable r.fc
  if !([1, 2, 3, 4, 5, 6, 15, 16].contains r.fc) then modException p r 1 d
  else if !fcWrites r.fc then
    if (List.range r.count).any fun k => (serverCover d r.unit table (r.addr + k)).isNone then modException p r 2 d
    else
      let x := serveRead p r.unit table r.addr r.count d
      match x.1 with
      | none => x.2
      | some rs =>
        let body := if table < 2 then packBits ((rs.length + 7) / 8) rs else rs.flatMap be16
        modReply p r (BitVec.ofNat 8 body.length :: body) x.2
  else match writeGroups d r.unit table r.values.length r.addr r.values with
    | none => modException p r 2 d
    | some gs =>
      if gs.any fun g => !modWritable d g.1 then modException p r 4 (refuseAll p gs d)
      else
        let x := modWrites p r.unit gs d
        if x.1 then modReply p r (be16 r.addr ++ (if r.fc < 15 then (r.values.flatMap fun v => be16 v.toNat) else be16 r.count)) x.2
        else modException p r 4 x.2

def modbusServerRequest (p : Nat) (req : ModReq) (d : Dev) : Dev :=
  let x := portOf d p
  if !x.isOpen || !imgService x.image 2 || x.held || d.pe.testing then d
  else if !pipesServe d then settle (modException p req 4 (takeCore p [.tcp502] d))
  else settle (serveModbus p req (takeCore p [.tcp502] d))

/-- The request that reads an entry's registers. -/
def pollBytes (e : MapEntry) : List Byte :=
  let fc := match mapTable e with
    | 0 => 1 | 1 => 2 | 2 => 4 | _ => 3
  [BitVec.ofNat 8 (mapUnit e), BitVec.ofNat 8 fc] ++ be16 (mapAddr e) ++ be16 (entryRegs e)

/-- When the response timeout of a poll falls due: TRUNK_A gives it for MODBUS_RTU (R257), nothing does for a TCP client. -/
def pollExpiry (d : Dev) (x : Port) : Option Stamp :=
  if x.proto = 3 then some (stPlus (now d) (acOfUs d (1000 * fld (imgWord x.image 0x1C) 15 0))) else none

def modbusPollDue (i : Nat) (d : Dev) : Dev :=
  match Tab.find d.ports.map i with
  | none => d
  | some e =>
    let x := portOf d (mapPort e)
    if mapRole e ≠ 3 ∨ !modbusClient x then d
    else modSend (mapPort e) (pollBytes e) (modEntry i (fun e => { e with polling := true, due := pollExpiry d x }) d)

/-- An unanswered poll writes the point FAULT, its value kept. -/
def modbusResponseTimeout (i : Nat) (d : Dev) : Dev :=
  match Tab.find d.ports.map i with
  | none => d
  | some e =>
    if !e.polling then d
    else
      enqueue { id := mapPoint e, act := .quality qFault, stamp := now d, source := modSource (mapPort e) (mapUnit e),
                writer := .field } (modEntry i (fun e => { e with polling := false, due := none, failed := true }) d)

/-- The decoded value is written with the check made at decode (R49, R259). A reply later than its deadline finds the poll
failed (R35). -/
def modbusPollReply (i : Nat) (rs : List Half) (stamp : Stamp) (d : Dev) : Dev :=
  match Tab.find d.ports.map i with
  | none => d
  | some e =>
    if !e.polling then d
    else if (e.due.map fun t => later stamp t).getD false then modbusResponseTimeout i d
    else match decodeRegs e rs, recOf d (mapPoint e) with
      | some v, some r =>
        let id := mapPoint e
        let d := takeCore (mapPort e) [.modbusRtu, .tcp502]
          (modEntry i (fun e => { e with polling := false, due := none, failed := false }) d)
        enqueue { id := id, act := .write v qGood (some (pointCheck id v qGood r.kind)) (if commandable r then 16 else 0),
                  stamp := stamp, source := modSource (mapPort e) (mapUnit e), writer := .field } d
      | _, _ => d

/-! ## The IP stack and links (R255, R256), a silent core (R397) -/

/-- A renewal: a lease granted is in use; without an answer the address stays until its lease ends. -/
def dhcpRenew (p : Nat) (lease : Option Word) (d : Dev) : Dev :=
  let x := portOf d p
  if !x.isOpen || !imgService x.image 4 || x.held then d
  else match lease with
    | some a => setPort p { x with ip4 := a, addrOk := true } d
    | none => d

/-- A link comes up or goes. An SC connection goes with it, and the connector turns to the other hub (R261; log entry
169). -/
def portLinkChange (p : Nat) (up : Bool) (speed : Nat) (d : Dev) : Dev :=
  if 8 ≤ p then d
  else modPort p (fun x => { x with
    linkUp := up, speed := speed % 4
    scUp := x.scUp && up, scHub := if x.scUp && !up then 1 - x.scHub else x.scHub }) d

/-- A core silent for 5 ms: its ports are held and it is tested. -/
def protocolCoreSilent (c : Nat) (d : Dev) : Dev :=
  if retired d (unitCore c) then d
  else errorTest (unitCore c) (forEach (portsOfCore d c) (fun p => modPort p fun x => { x with held := true }) d)

def execRawFramePost (port : Fin 24) (s : State) := run (rawFramePost port.val) s
def execBacnetRequest (port : Fin 24) (req : BacReq) (s : State) := run (bacnetRequest port.val req) s
def execModbusServerRequest (port : Fin 24) (req : ModReq) (s : State) := run (modbusServerRequest port.val req) s
def execModbusPollDue (entry : Nat) (s : State) := run (modbusPollDue entry) s
def execDhcpRenew (port : Fin 24) (lease : Option Word) (s : State) := run (dhcpRenew port.val lease) s
def execPortLinkChange (port : Fin 24) (up : Bool) (speed : BitVec 2) (s : State) :=
  run (portLinkChange port.val up speed.toNat) s
def execProtocolCoreSilent (core : Fin 16) (s : State) := run (protocolCoreSilent core.val) s
def execPortOpen (c : HostCmd) (s : State) := run (hostExec 0x0601 portOpen c) s
def execPortClose (c : HostCmd) (s : State) := run (hostExec 0x0602 portClose c) s
def execPortSend (c : HostCmd) (s : State) := run (hostExec 0x0603 portSend c) s
def execPortQuench (c : HostCmd) (s : State) := run (hostExec 0x0604 portQuench c) s
def execPortStats (c : HostCmd) (s : State) := run (hostExec 0x0605 portStats c) s

end Sys2Proof.Machine
end

