-- ==== Sys2Proof/Machine/Arrive.lean ====
section
/-! DEFINITION. Arrive: arrivals and expiries (R35, R36). An arrival is complete at its stamp, an expiry falls at its own:
the angle comes to the one or the other, firing the occurrences that it passes (R19, R30). Within one count arrivals come
first, dispatches next, expiries last, whatever their order in the queue. -/
namespace Sys2Proof.Machine

/-! ## Arrivals -/

/-- The count, as the field die counts, at which a command of the queue was complete, where it carries a stamp. -/
def arrivalStamp (d : Dev) : Instr → Option Stamp
  | .sincWord _ _ _ s | .urgentConversionEnd _ _ _ s | .uiLevelAccepted _ _ s | .sensorPollReadEnd _ _ _ s => some s
  | .hello _ _ s | .value _ _ s | .ack _ _ s | .diag _ _ s | .beacon _ _ s | .heartbeat _ _ s | .modbusPollReply _ _ s
  | .peerResultArrival _ s => some (fieldStamp d s)
  | .frameReceived _ f => some (fieldStamp d f.stamp)
  | .ropeLinkFrame f => some (fieldStamp d f.arrived)
  | _ => none

/-- What has lapsed before an arrival acts before it. -/
def lapse (due : Dev → Option Stamp) (s : Stamp) (f : Dev → Dev) (d : Dev) : Dev :=
  match due d with
  | some u => if later s u then f (expire u d) else d
  | none => d

/-! ## Expiries -/

/-- An expiry that is armed, at its stamp, unless an arrival that is in time for it waits in the queue. -/
def onExpiry (due : Option Stamp) (beaten : Stamp → Instr → Bool) (f : Dev → Dev) (q : List Instr) (d : Dev) : Dev :=
  match due with
  | some s => if q.any (beaten s) then d else f (expire s d)
  | none => d

/-! ## Angle events (R30) -/

/-- The earliest arrival that waits. -/
def nextArrival (q : List Instr) (d : Dev) : Option Stamp :=
  (q.filterMap (arrivalStamp d)).foldl (fun m s =>
    match m with
    | none => some s
    | some x => some (if later x s then s else x)) none

/-- The angle passes an occurrence; arrivals that wait come before the dispatches of their count. -/
def angleEventDispatch (angle : Half) (q : List Instr) (d : Dev) : Dev :=
  let t : Stamp := ⟨d.tb.cycle, angle⟩
  settle (match nextArrival q d with
    | some s => if later s t then passTo t true d else passTo s false d
    | none => passTo t true d)

/-- The start stamp of a RELAY_CLOSE occurrence. -/
def relayCoilStart (i : Nat) (q : List Instr) (d : Dev) : Dev :=
  match Tab.find d.tb.entries i with
  | some e =>
    if aeEnabled e && aeAction e == 4 && !e.started then
      settle (match nextArrival q d with
        | some s => if later s e.start then passTo e.start true d else passTo s false d
        | none => passTo e.start true d)
    else d
  | none => d

/-- A load zero crossing of TGn: the angle comes to it (R245). -/
def tgCrossing (n : Nat) (rising : Bool) (d : Dev) : Dev :=
  let a := (tgZc (tgOf d n) + if rising then 0 else 32768) % 65536
  tgZeroCrossing n rising (arriveField ⟨d.tb.cycle, hw a⟩ d)

/-- The detector's last sample of a pull-in (R227). -/
def dipArrival (ch : Nat) (codes : List Nat) (d : Dev) : Dev :=
  if (chanOf d ch).st = 2 then motionDip ch codes (arriveField (pullStamp ch codes.length d) d) else d

/-! ## Roped results (R103) -/

/-- A cluster that has waited 1 ms by the time the results come has given up. -/
def peerResult (r : LoopRef) (s : Stamp) (d : Dev) : Dev :=
  let d := lapse (peerDue · r .a) s (peerTimeout r .a) d
  let d := lapse (peerDue · r .b) s (peerTimeout r .b) d
  settle (peerArrival r (arrive s d))

def peerBeaten (r : LoopRef) (due : Stamp) : Instr → Bool
  | .peerResultArrival x s => x == r && !later s due
  | _ => false

/-! ## Heartbeats (R286, R306) -/

/-- Misses whose counts come before an arrival: the first three one by one, after which a further one only counts. -/
def missBefore : Nat → Cluster → Stamp → Dev → Dev
  | 0, c, s, d =>
    match (track d c).due with
    | some u =>
      let ac := max 1 (acOfUs d 1100)
      let n := if later s u then ((stampDiff s u).toNat + ac - 1) / ac else 0
      let d := setTrack c { track d c with misses := (track d c).misses + n, due := some (stPlus u (n * ac)) } d
      { d with belay := { d.belay with hbMissed := satAdd 65535 d.belay.hbMissed n } }
    | none => d
  | k + 1, c, s, d =>
    match (track d c).due with
    | some u => if later s u then missBefore k c s (heartbeatMiss c (expire u d)) else d
    | none => d

/-- A start wait that has ended by then comes first. -/
def heartbeatArrival (c : Cluster) (seq : Half) (s : Stamp) (d : Dev) : Dev :=
  let d := lapse (·.belay.waiting) s belayStartWaitEnd d
  heartbeat c seq s (arrive s (missBefore 3 c s d))

def heartbeatIn (p : Cluster → Bool) (due : Stamp) : Instr → Bool
  | .heartbeat c _ s => p c && !later s due
  | _ => false

/-! ## The Rope link, the witness, the search (R298–R303) -/

/-- What silence has brought by a count. -/
def linkLapses (s : Stamp) (d : Dev) : Dev :=
  let d := lapse (·.pair.linkDue) s ropeLinkSilent d
  let d := lapse (·.pair.heardDue) s witnessTimeout d
  lapse (·.pair.searchDue) s pairSearchTimeout d

def linkFrameArrival (f : RopeFrame) (d : Dev) : Dev :=
  if f.crcOk then ropeLinkFrame f (arrive f.arrived (linkLapses f.arrived d)) else d

def beaconArrival (t : Nat) (b : List Byte) (s : Stamp) (d : Dev) : Dev := beacon t b s (arrive s (linkLapses s d))

/-- A valid link frame in time. -/
def linkIn (due : Stamp) : Instr → Bool
  | .ropeLinkFrame f => f.crcOk && !later f.arrived due
  | _ => false

/-- A link frame or a witness beacon of the twin in time. -/
def twinIn (d : Dev) (due : Stamp) : Instr → Bool
  | .ropeLinkFrame f => f.crcOk && f.hash == d.pair.hash && !later f.arrived due
  | .beacon t b s =>
    !later s due && d.pair.witness.contains ((kwPort d t).getD 0) &&
      ((receiveK t.val tBeacon b d).1.map fun f => f.src == twinAddr d).getD false
  | _ => false

/-! ## Port responses (R262) -/

/-- The expiry of an entry's poll; a poll without one expires when it is told to. -/
def pollDue (d : Dev) (i : Nat) : Option Stamp :=
  (Tab.find d.ports.map i).bind fun e => if e.polling then some (e.due.getD (now d)) else none

def replyIn (d : Dev) (i : Nat) (due : Stamp) : Instr → Bool
  | .modbusPollReply j rs s =>
    j == i && !later s due &&
      ((Tab.find d.ports.map i).map fun e => e.due.isSome && (decodeRegs e rs).isSome).getD false
  | _ => false

def pollReplyArrival (i : Nat) (rs : List Half) (s : Stamp) (d : Dev) : Dev :=
  modbusPollReply i rs s (arrive s (lapse (fun d => (Tab.find d.ports.map i).bind (·.due)) s (modbusResponseTimeout i) d))

/-! ## Kwela answers (R280) -/

def flightDue (d : Dev) (t a : Nat) : Option Stamp := ((devOn d t a).bind (·.flight)).bind (·.due)

/-- An ACK or a DIAG of the device answers the frame in flight in time. -/
def answerIn (d : Dev) (t a : Nat) : Instr → Bool
  | .ack x b s => x.val == t && ((receiveK t tAck b d).1.map fun f => f.src == a && (answered t f s d).isSome).getD false
  | .diag x b s => x.val == t && ((receiveK t tDiag b d).1.map fun f => f.src == a && (answered t f s d).isSome).getD false
  | _ => false

/-- An ACK in time that may end the HELD state of an output. -/
def ackIn (due : Stamp) : Instr → Bool
  | .ack _ _ s => !later s due
  | _ => false

/-! ## Commands -/

def execAngleEventDispatch (angle : Half) (s : State) := runWith (angleEventDispatch angle) s
def execRelayCoilStart (entry : Fin 1024) (s : State) := runWith (relayCoilStart entry.val) s
def execTgZeroCrossing (n : Fin 16) (rising : Bool) (s : State) := run (tgCrossing n.val rising) s
def execMotionDip (ch : Fin 48) (codes : List Nat) (s : State) := run (dipArrival ch.val codes) s
def execSincWord (adc : Fin 4) (raw : Int) (clip : Option Bool) (stamp : Stamp) (s : State) :=
  run (fun d => sincWord adc.val raw clip stamp (arriveField stamp d)) s
def execUrgentConversionEnd (adc : Fin 4) (raw : Int) (clip : Option Bool) (stamp : Stamp) (s : State) :=
  run (fun d => urgentConversionEnd adc.val raw clip stamp (arriveField stamp d)) s
def execUiLevelAccepted (ui : Fin 48) (closed : Bool) (stamp : Stamp) (s : State) :=
  run (fun d => uiLevelAccepted ui.val closed stamp (arriveField stamp d)) s
def execSensorPollReadEnd (bus : Fin 4) (sensor : Fin 16) (bytes : Option (List Byte)) (stamp : Stamp) (s : State) :=
  run (fun d => sensorPollReadEnd bus.val sensor.val bytes stamp (arriveField stamp d)) s
def execFrameReceived (port : Fin 24) (frame : Frame) (s : State) :=
  run (fun d => frameReceived port.val frame (arrive frame.stamp d)) s
def execHello (trunk : Fin 16) (bytes : List Byte) (stamp : Stamp) (s : State) :=
  run (fun d => hello trunk.val bytes stamp (arrive stamp d)) s
def execValue (trunk : Fin 16) (bytes : List Byte) (stamp : Stamp) (s : State) :=
  run (fun d => value trunk.val bytes stamp (arrive stamp d)) s
def execAck (trunk : Fin 16) (bytes : List Byte) (stamp : Stamp) (s : State) :=
  run (fun d => ack trunk.val bytes stamp (arrive stamp d)) s
def execDiag (trunk : Fin 16) (bytes : List Byte) (stamp : Stamp) (s : State) :=
  run (fun d => diag trunk.val bytes stamp (arrive stamp d)) s
def execBeacon (trunk : Fin 16) (bytes : List Byte) (stamp : Stamp) (s : State) := run (beaconArrival trunk.val bytes stamp) s
def execScanSlotEnd (trunk : Fin 16) (overrun : Bool) (s : State) :=
  run (fun d => scanSlotEnd trunk.val overrun
    (match (trunkOf d trunk.val).scan with
     | some x => expire x.due d
     | none => d)) s
def execAckWaitExpiry (trunk : Fin 16) (addr : Nat) (s : State) :=
  runWith (fun q d => onExpiry (flightDue d trunk.val addr) (fun _ => answerIn d trunk.val addr)
    (ackWaitExpiry trunk.val addr) q d) s
def execModbusPollReply (entry : Nat) (regs : List Half) (stamp : Stamp) (s : State) :=
  run (pollReplyArrival entry regs stamp) s
def execModbusResponseTimeout (entry : Nat) (s : State) :=
  runWith (fun q d => onExpiry (pollDue d entry) (replyIn d entry) (modbusResponseTimeout entry) q d) s
def execPeerResultArrival (ref : LoopRef) (stamp : Stamp) (s : State) := run (peerResult ref stamp) s
def execPeerResultTimeout (ref : LoopRef) (on : Cluster) (s : State) :=
  runWith (fun q d => onExpiry (peerDue d ref on) (peerBeaten ref) (peerTimeout ref on) q d) s
def execHeartbeat (cluster : Cluster) (seq : Half) (stamp : Stamp) (s : State) := run (heartbeatArrival cluster seq stamp) s
def execHeartbeatMiss (cluster : Cluster) (s : State) :=
  runWith (fun q d => onExpiry (track d cluster).due (heartbeatIn (· == cluster)) (heartbeatMiss cluster) q d) s
def execBelayStartWaitEnd (s : State) :=
  runWith (fun q d => onExpiry d.belay.waiting (heartbeatIn fun c => !(track d c).started) belayStartWaitEnd q d) s
def execRefreshLate (s : State) := runWith (fun q d => onExpiry d.belay.refreshDue ackIn refreshLate q d) s
def execRopeLinkFrame (frame : RopeFrame) (s : State) := run (linkFrameArrival frame) s
def execRopeLinkSilent (s : State) := runWith (fun q d => onExpiry d.pair.linkDue linkIn ropeLinkSilent q d) s
def execWitnessTimeout (s : State) := runWith (fun q d => onExpiry d.pair.heardDue (twinIn d) witnessTimeout q d) s
def execPairSearchTimeout (s : State) := runWith (fun q d => onExpiry d.pair.searchDue (twinIn d) pairSearchTimeout q d) s

end Sys2Proof.Machine
end

