-- ==== Sys2Proof/Machine/Hif.lean ====
section
/-! DEFINITION. Hif: host set-up and its checks, host-interface resets, the Sluice (R320–R332), the doorbell page, fetching,
the status page, coalescing (R333–R353), and the control commands NOP, NEGOTIATE, QUENCH, UNQUENCH and FENCE. -/
namespace Sys2Proof.Machine

def setHif (h : HostIf) (d : Dev) : Dev := { d with hif := h }

def wrErr (d : Dev) : Dev := setHif { d.hif with wrErr := true } d

/-! ## Versions (R323) -/

def versHostMask : Word := 6#32

/-- HIF_AGREED.REV: the highest revision both offer. -/
def agreed (d : Dev) : Nat := if bit d.hif.versHost 2 then 2 else if bit d.hif.versHost 1 then 1 else 0

/-- The host's revisions; the agreement holds while the interface runs. -/
def versionsHostWrite (v : Word) (d : Dev) : Dev :=
  if d.hif.enabled then wrErr d else setHif { d.hif with versHost := v &&& versHostMask } d

/-! ## Set-up errors (R327). Items: SQn as n, CQn as 32 + n, window w as 64 + w, the pages 128 and 129. -/

def errReady : Nat := 1
def errVersion : Nat := 2
def errWindow : Nat := 3
def errDoorbell : Nat := 4
def errStatus : Nat := 5
def errRing : Nat := 6
def errControl : Nat := 7
def errOverlap : Nat := 8

def winOf (d : Dev) (w : Nat) : Window := Tab.get {} d.hif.wins w
def setWin (w : Nat) (x : Window) (d : Dev) : Dev :=
  setHif { d.hif with wins := Tab.set {} d.hif.wins w x } d

def winBad (x : Window) : Bool :=
  decide (winSize x = 0 ∨ 1048576 < fld x.pages 20 0 ∨ winBase x % 4096 ≠ 0 ∨ 18446744073709551616 < winBase x + winSize x)

def dbAddr (d : Dev) : Nat := addr64 d.hif.dbLo d.hif.dbHi
def spAddr (d : Dev) : Nat := addr64 d.hif.spLo d.hif.spHi

def doorbellBad (d : Dev) : Bool := decide (dbAddr d % 512 ≠ 0) || !canRead d (dbAddr d) 512
def statusBad (d : Dev) : Bool := decide (spAddr d % 512 ≠ 0) || !canWrite d (spAddr d) 512

def sqBytes (r : Ring) : Nat := 64 * depth r
def cqBytes (r : Ring) : Nat := 32 * depth r

/-- Shape and place of a ring, as an SQ or a CQ. -/
def ringBad (d : Dev) (cq : Bool) (r : Ring) : Bool :=
  let k := fld r.cfg 4 0
  decide (k < 4 ∨ 16 < k ∨ ringBase r % 4096 ≠ 0) ||
  !(if cq then canWrite d (ringBase r) (cqBytes r) else canRead d (ringBase r) (sqBytes r))

def sqBad (d : Dev) (n : Nat) : Bool := ringBad d false (sqOf d n) || !ringOn (cqOf d n)
def cqBad (d : Dev) (n : Nat) : Bool := ringBad d true (cqOf d n)

/-- Enabled rings and the pages as (item, first byte, end). -/
def ringAreas (d : Dev) : List (Nat × Nat × Nat) :=
  ((List.range 32).filter fun n => ringOn (sqOf d n)).map (fun n => (n, ringBase (sqOf d n), ringBase (sqOf d n) + sqBytes (sqOf d n))) ++
  ((List.range 32).filter fun n => ringOn (cqOf d n)).map
    (fun n => (32 + n, ringBase (cqOf d n), ringBase (cqOf d n) + cqBytes (cqOf d n)))

def pageAreas (d : Dev) : List (Nat × Nat × Nat) :=
  [(128, dbAddr d, dbAddr d + 512), (129, spAddr d, spAddr d + 512)]

def areasMeet (a b : Nat × Nat × Nat) : Bool := decide (a.2.1 < b.2.2 ∧ b.2.1 < a.2.2)

/-- The first area that shares a byte with a later one, at least one of the two a ring. -/
def overlapOf (d : Dev) : Option Nat :=
  ((ringAreas d).find? fun a => (ringAreas d ++ pageAreas d).any fun b => decide (a.1 < b.1) && areasMeet a b).map Prod.fst

/-- The whole set-up, in the order of *Set-up errors*: code and item of the first failure. -/
def setupError (d : Dev) : Option (Nat × Nat) :=
  if !d.hif.ready then some (errReady, 0)
  else if agreed d = 0 then some (errVersion, 0)
  else match (List.range 64).find? fun w => bit (winOf d w).ctrl 0 && winBad (winOf d w) with
    | some w => some (errWindow, 64 + w)
    | none =>
      if doorbellBad d then some (errDoorbell, 128)
      else if statusBad d then some (errStatus, 129)
      else match (List.range 32).find? fun n => ringOn (sqOf d n) && sqBad d n with
        | some n => some (errRing, n)
        | none => match (List.range 32).find? fun n => ringOn (cqOf d n) && cqBad d n with
          | some n => some (errRing, 32 + n)
          | none =>
            if !ringOn (sqOf d 0) then some (errControl, 0)
            else if !ringOn (cqOf d 0) || decide (depth (cqOf d 0) < 32) then some (errControl, 32)
            else (overlapOf d).map fun i => (errOverlap, i)

def setErr (e i : Nat) (d : Dev) : Dev := setHif { d.hif with err := e, errIndex := i } d

/-- Indices 0 and the first pass (R341); the ring's revision is the agreed one until a NEGOTIATE. -/
def freshRing (rev : Nat) (r : Ring) : Ring :=
  { r with head := 0, tail := 0, phase := true, counted := 0, seen := 0#32, rev := rev }

def startRings (d : Dev) : Dev :=
  let g := agreed d
  setHif { d.hif with
    sqs := Tab.mapVals d.hif.sqs (fun _ r => freshRing (if ringOn r then g else 0) r)
    cqs := Tab.mapVals d.hif.cqs (fun _ r => freshRing 0 r) } d

/-- HIF_CTRL.ENABLE is written 1. A running interface is not checked again (log entry 192). -/
def enableHif (d : Dev) : Dev :=
  if d.hif.enabled then d
  else match setupError d with
    | some e => setErr e.1 e.2 d
    | none =>
      let d := setErr 0 0 (startRings d)
      setHif { d.hif with enabled := true, hbAt := d.lk.rounds } d

/-! ## Host-interface reset (R330) -/

/-- HOST_ABSENT is set and logged (R397). -/
def goAbsent (d : Dev) : Dev :=
  if d.lk.hostAbsent then d
  else logE sevNotice 0x009 0#32 0#32
    { d with lk := { d.lk with hostAbsent := true, absences := up16 d.lk.absences } }

/-- Queued raw frames are dropped and counted, and every buffer is free. -/
def clearRaw (d : Dev) : Dev :=
  { d with ports := { d.ports with ports := Tab.mapVals d.ports.ports fun _ x =>
      { x with dropRaw := satAdd 65535 x.dropRaw x.rawQ.length, dropSince := satAdd 65535 x.dropSince x.rawQ.length
               rawQ := [], usedBufs := [], nextBuf := 0 } } }

/-- The set-up registers at their Reset values. -/
def blankSetup (h : HostIf) : HostIf :=
  { h with
    versHost := 0#32, err := 0, errIndex := 0, wrErr := false, dbLo := 0#32, dbHi := 0#32, dbPoll := 10#32
    spLo := 0#32, spHi := 0#32, spCtrl := 10#32, sqs := [], cqs := [], wins := [], sluice := false, closes := 0, drained := true }

/-- `keep` tells a write of ENABLE, which keeps the set-up registers, from every other cause. -/
def resetHif (keep : Bool) (d : Dev) : Dev :=
  let h := { d.hif with
    enabled := false, lastServed := 0
    fetched := d.hif.fetched.map fun f => { f with orphan := true }
    sqs := Tab.mapVals d.hif.sqs (fun _ r => freshRing 0 r)
    cqs := Tab.mapVals d.hif.cqs (fun _ r => freshRing 0 r) }
  let d := setHif (if keep then h else blankSetup h) d
  let d := { d with
    lop := { d.lop with slots := Tab.mapVals d.lop.slots fun _ l => { l with reserved := false, progress := false } }
    sec := { d.sec with sessions := [] } }
  goAbsent (clearRaw d)

/-- HIF_CTRL.ENABLE is written 0. -/
def disableHif (d : Dev) : Dev := if d.hif.enabled then resetHif true d else d

/-- A write of HIF_CTRL without RESET. -/
def hifEnableBit (v : Word) (d : Dev) : Dev := if bit v 0 then enableHif d else disableHif d

def hostInterfaceReset (cause : HifCause) (d : Dev) : Dev :=
  let d := resetHif false d
  if cause = .flr then d else setHif { d.hif with linkUp := false } d

def pcieLinkUp (d : Dev) : Dev := setHif { d.hif with linkUp := true } d

/-! ## Set-up writes while the interface runs (R328) -/

def sqCfgMask : Word := 0x8000001F#32
def cqCfgMask : Word := 0xC000001F#32

/-- The ring's area meets another ring or a page. -/
def ringMeets (d : Dev) (item : Nat) : Option Nat :=
  match (ringAreas d).find? fun a => a.1 == item with
  | none => none
  | some a => ((ringAreas d ++ pageAreas d).find? fun b => b.1 != item && areasMeet a b).map fun b => min item b.1

def putRing (cq : Bool) (n : Nat) (r : Ring) (d : Dev) : Dev := if cq then setCq n r d else setSq n r d
def ringOf (d : Dev) (cq : Bool) (n : Nat) : Ring := if cq then cqOf d n else sqOf d n

/-- EN is set on one ring of a running interface: the checks for that item alone. -/
def openRing (cq : Bool) (n : Nat) (r : Ring) (d : Dev) : Dev :=
  let item := if cq then 32 + n else n
  let d' := putRing cq n (freshRing (if cq then 0 else agreed d) r) d
  let off := putRing cq n { r with cfg := setBit r.cfg 31 false } d
  if (if cq then cqBad d' n else sqBad d' n) then setErr errRing item off
  else match ringMeets d' item with
    | some i => setErr errOverlap i off
    | none => d'

/-- A write of SQn_CFG or CQn_CFG. -/
def ringCfgWrite (cq : Bool) (n : Nat) (v : Word) (d : Dev) : Dev :=
  let r := ringOf d cq n
  let w := rwMask r.cfg v (if cq then cqCfgMask else sqCfgMask)
  if !d.hif.enabled then putRing cq n { r with cfg := w } d
  else if !ringOn r then (if bit v 31 then openRing cq n { r with cfg := w } d else putRing cq n { r with cfg := w } d)
  else if bit v 31 || n == 0 || (cq && ringOn (sqOf d n)) then wrErr d
  else putRing cq n { r with cfg := setBit r.cfg 31 false } d

/-- Every enabled ring and page still lies in a window. -/
def windowsServe (d : Dev) : Bool :=
  !doorbellBad d && !statusBad d &&
  ((List.range 32).all fun n => !ringOn (sqOf d n) || canRead d (ringBase (sqOf d n)) (sqBytes (sqOf d n))) &&
  ((List.range 32).all fun n => !ringOn (cqOf d n) || canWrite d (ringBase (cqOf d n)) (cqBytes (cqOf d n)))

/-- A write of WINw_CTRL. -/
def windowCtrlWrite (n : Nat) (v : Word) (d : Dev) : Dev :=
  let x := winOf d n
  let y := { x with ctrl := v &&& 7#32 }
  if !d.hif.enabled then setWin n y d
  else if !bit x.ctrl 0 then
    (if bit v 0 && winBad y then setErr errWindow (64 + n) (setWin n { y with ctrl := setBit y.ctrl 0 false } d)
     else setWin n y d)
  else if bit v 0 then wrErr d
  else
    let d' := setWin n { x with ctrl := setBit x.ctrl 0 false } d
    if windowsServe d' then d' else wrErr d

/-! ## The Sluice (R332) and bad accesses (R322) -/

def closeSluice (d : Dev) : Dev :=
  if d.hif.sluice then d
  else setHif { d.hif with sluice := true, closes := up16 d.hif.closes, drained := false } d

def openSluice (d : Dev) : Dev := setHif { d.hif with sluice := false, drained := true } d

def sluiceWrite (v : Word) (d : Dev) : Dev := if bit v 0 then closeSluice d else openSluice d

def sluiceDrained (d : Dev) : Dev := setHif { d.hif with drained := true } d

def badAccess (write : Bool) (d : Dev) : Dev := if write then wrErr d else emit .readAll1 d

/-! ## The doorbell page (R333, R334, R343) -/

/-- A doorbell value that is ignored: counted in CHANGES and logged with its ring. -/
def ignoreDoorbell (item : Nat) (v : Word) (d : Dev) : Dev :=
  logE sevNotice 0x033 (wd item) v
    (setHif { d.hif with changes := (d.hif.changes + 1) % 65536, ignored := d.hif.ignored + 1 } d)

/-- A new SQ_TAIL lies at or beyond the accepted one, from the head on. -/
def tailOk (r : Ring) (v : Word) : Bool :=
  let n := v.toNat
  decide (n < depth r) && decide ((r.tail + depth r - r.head) % depth r ≤ (n + depth r - r.head) % depth r)

/-- A new CQ_HEAD lies between the accepted one and the device's tail. -/
def headOk (r : Ring) (v : Word) : Bool :=
  let n := v.toNat
  decide (n < depth r) && decide ((n + depth r - r.head) % depth r ≤ ringUsed r)

/-- One SQ's tail, judged when it differs from the last value seen. -/
def pollTail (page : List Byte) (n : Nat) (d : Dev) : Dev :=
  let r := sqOf d n
  let v := wordAt page (8 * n)
  if !ringOn r || v == r.seen then d
  else if tailOk r v then setSq n { r with tail := v.toNat, seen := v } d
  else ignoreDoorbell n v (setSq n { r with seen := v } d)

def pollHead (page : List Byte) (n : Nat) (d : Dev) : Dev :=
  let r := cqOf d n
  let v := wordAt page (0x100 + 8 * n)
  if !ringOn r || v == r.seen then d
  else if headOk r v then setCq n { r with head := v.toNat, seen := v } d
  else ignoreDoorbell (32 + n) v (setCq n { r with seen := v } d)

/-- HOST_HB is sampled; its first change ends an absence (R397). -/
def pollBeat (page : List Byte) (d : Dev) : Dev :=
  let v := wordAt page 4
  if v = d.hif.hostHb then d
  else
    let d := setHif { d.hif with hostHb := v, hbAt := d.lk.rounds } d
    if d.lk.hostAbsent then logE sevNotice 0x00A 0#32 0#32 { d with lk := { d.lk with hostAbsent := false } } else d

/-- A descriptor as fetched, its in-buffer read where it lies in a READ window (R344). -/
def parseCmd (n : Fin 32) (b : List Byte) (d : Dev) : HostCmd :=
  let c : HostCmd := {
    sq := n, tag := wordAt b 4, target := wordAt b 8, count := wordAt b 0xC, p0 := wordAt b 0x10, p1 := wordAt b 0x14
    p2 := wordAt b 0x18, p3 := wordAt b 0x1C, irqNow := byteAt b 2 % 2 == 1, fmt := byteAt b 3
    authSlot := byteAt b 0x2C, authSeq := fld (wordAt b 0x2C) 31 8, authTag := (b.drop 0x30).take 12
    bufAddr := addr64 (wordAt b 0x20) (wordAt b 0x24), bufLen := (wordAt b 0x28).toNat, buf := [] }
  let use := (shapeOf (halfAt b 0) c).buf
  if (oneShot c || use == .inn || use == .both) && canRead d c.bufAddr c.bufLen then
    { c with buf := memReadList d.hif.mem c.bufAddr c.bufLen }
  else c

/-- Checks 1–6 of a fetched descriptor (R345). -/
def judgeRaw (b : List Byte) (c : HostCmd) (d : Dev) : Option (Nat × Word) × Dev :=
  let op := halfAt b 0
  let crc := crc32c (b.take 60)
  if crc ≠ wordAt b 60 then (some (stCheckFail, crc), d)
  else if fmtOk c d && catalogue.contains op && decide (2 ≤ byteAt b 2) then (some (stBadFormat, 2#32), d)
  else judge op c d

/-- Fetch the next descriptor of SQn, while there is one, CQn has room (R350) and the point engine's queue is not full
(R66). -/
def fetchOne (n : Fin 32) (d : Dev) : Dev :=
  let r := sqOf d n.val
  let a := ringBase r + 64 * r.head
  if !ringOn r || r.head == r.tail || cqRoom d n.val == 0 || queueFull d || !canRead d a 64 then d
  else
    let b := memReadList d.hif.mem a 64
    let c := parseCmd n b d
    let j := judgeRaw b c d
    addFetched (halfAt b 0) c j.1 (setSq n.val { sqOf j.2 n.val with head := (r.head + 1) % depth r } j.2)

/-- Up to sixteen descriptors, stopping at the wrap. -/
def fetchRing (n : Fin 32) (d : Dev) : Dev :=
  let r := sqOf d n.val
  forRange (min 16 (depth r - r.head)) (fun _ => fetchOne n) d

/-- SQ0, then the others after the ring served last. -/
def serveOrder (last : Nat) : List (Fin 32) :=
  0 :: ((List.range 31).map fun i => Fin.ofNat 32 (1 + (last + i) % 31))

def serveRings (d : Dev) : Dev :=
  forEach (serveOrder d.hif.lastServed) (fun n d =>
    let d' := fetchRing n d
    if decide (n.val ≠ 0) && (sqOf d' n.val).head != (sqOf d n.val).head then setHif { d'.hif with lastServed := n.val } d'
    else d') d

/-- What the host has stored in its memory since the last poll. -/
def hostStores (stores : List (Nat × List Byte)) (d : Dev) : Dev :=
  setHif { d.hif with mem := stores.foldl (fun m s => memWriteList m s.1 s.2) d.hif.mem } d

/-- One poll: the page, the heads and tails, the rings in order; descriptors that fail their checks complete. -/
def doorbellPoll (stores : List (Nat × List Byte)) (d : Dev) : Dev :=
  let d := hostStores stores d
  if !coreRuns d || !d.hif.enabled || !canRead d (dbAddr d) 512 then d
  else
    let page := memReadList d.hif.mem (dbAddr d) 512
    let d := pollBeat page d
    let d := forRange 32 (pollHead page) d
    let d := forRange 32 (pollTail page) d
    failAll (serveRings (forRange 24 freeBufs d))

/-! ## The status page (R335–R338) -/

def portQuenched (d : Dev) : Bool := d.ports.ports.any fun p => p.2.qFwd || p.2.qTx

/-- CAUSE[9:0]. -/
def causeBits (d : Dev) : Nat :=
  let logged := match d.lk.cairnRound with
    | some r => decide (d.lk.rounds < r + 100)
    | none => false
  at' 9 (b2n logged) + at' 8 (b2n (d.tb.st != .locked)) + at' 7 (b2n d.lk.pfw) + at' 6 (b2n d.hif.sluice) +
  at' 5 (b2n (!d.integ.retired.isEmpty || !d.pe.p0 || !d.pe.p1)) +
  at' 4 (b2n (bit d.belay.flags 3 || bit d.belay.flags 4 || bit d.belay.flags 5)) + at' 3 (b2n (belayState d != 0)) +
  at' 2 (b2n (d.th.level != 0)) + at' 1 (b2n d.th.warn) + b2n (d.hif.quenchedCq != 0 || portQuenched d)

/-- A change of the bits counts in CHANGES. -/
def noteCause (d : Dev) : Dev :=
  let c := causeBits d
  if c = d.hif.causeLast then d
  else setHif { d.hif with causeLast := c, changes := (d.hif.changes + 1) % 65536 } d

def lopMask (d : Dev) (f : LongOp → Bool) : Nat :=
  ((d.lop.slots.filter fun p => f p.2).map fun p => 2 ^ p.1).sum

def lopActive (d : Dev) : Nat := lopMask d fun l => l.st != 4
def lopDone (d : Dev) : Nat := lopMask d fun l => l.st == 4

/-- Words 0x000–0x107. -/
def pageHead (d : Dev) : List Word :=
  ((List.range 32).map fun n => wd (sqOf d n).head) ++
  ((List.range 32).map fun n => wd (at' 16 (b2n (cqOf d n).phase) + (cqOf d n).tail)) ++
  [wd (at' 16 d.hif.changes + d.hif.causeLast), wd d.hif.heartbeat]

def zeros (n : Nat) : List Word := List.replicate n 0#32

def pageSlot (d : Dev) (s : Nat) : List Word :=
  match Tab.find d.lop.slots s with
  | some l => [l.cmd.tag, wd (at' 24 l.st + at' 16 (lopPct l) + l.opcode)]
  | none => [0#32, 0#32]

/-- The page under revision 1. -/
def statusPage1 (d : Dev) : List Byte := wordsBytes (pageHead d ++ [wd (lopActive d)] ++ zeros 61)

/-- The page under revision 2, with HEARTBEAT_END and CHECK. -/
def statusPage2 (d : Dev) : List Byte :=
  let b := wordsBytes (pageHead d ++
    [d.tb.cycle, wd (at' 24 d.th.level + at' 16 (tbStateCode d.tb.st) + d.tb.angle.toNat), wallOrZero d,
     wd (at' 16 (lopDone d) + lopActive d), 0#32, 0#32] ++
    (List.range 16).flatMap (pageSlot d) ++ zeros 22 ++ [wd d.hif.heartbeat])
  b ++ wordBytes (crc32c b)

/-- One write of the page; a change of CHANGES since the last signals the device vector (R352). -/
def statusPageWrite (d : Dev) : Dev :=
  if !coreRuns d || !d.hif.enabled || !canWrite d (spAddr d) 512 then d
  else
    let d := noteCause d
    let d := setHif { d.hif with heartbeat := (d.hif.heartbeat + 1) % 4294967296 } d
    let d := hostWrite (spAddr d) (if agreed d = 2 then statusPage2 d else statusPage1 d) d
    if d.hif.changes = d.hif.changesShown then d
    else signal 32 (setHif { d.hif with changesShown := d.hif.changes } d)

/-! ## Coalescing (R352), lockout (R380) -/

def coalesceTimeout (n : Nat) (d : Dev) : Dev :=
  let r := cqOf d n
  if bit r.cfg 30 && decide (r.counted ≠ 0) && decide (fld r.coal 31 16 ≠ 0) then signal n (setCq n { r with counted := 0 } d)
  else d

def lockoutEnd (d : Dev) : Dev := { d with sec := { d.sec with lockout := false } }

/-! ## CTRL commands -/

def nop (_ : HostCmd) (d : Dev) : Option Done × Dev := (some ok, d)

/-- The revision in force on one SQ, for descriptors fetched from now on. -/
def negotiate (c : HostCmd) (d : Dev) : Option Done × Dev :=
  let n := c.target.toNat
  let v := fld c.p0 1 0
  if 32 ≤ n then (some (badField 0x08), d)
  else if v = 0 then (some (badField 0x10), d)
  else if agreed d < v then (some (fail stVersion (wd v)), d)
  else (some (okWith (wd v)), setSq n { sqOf d n with rev := v } d)

/-- The ports of a mask take or lose the forwarding switch. -/
def quenchPorts (mask : Word) (on : Bool) (d : Dev) : Dev :=
  forRange 24 (fun p d => if bit mask p then modPort p (fun x => { x with qFwd := on }) d else d) d

def quench (c : HostCmd) (d : Dev) : Option Done × Dev :=
  (some ok, quenchPorts c.p1 true (setHif { d.hif with quenchedCq := d.hif.quenchedCq ||| c.p0.toNat } d))

def unquench (c : HostCmd) (d : Dev) : Option Done × Dev :=
  (some ok, quenchPorts c.p1 false
    (setHif { d.hif with quenchedCq := d.hif.quenchedCq - (d.hif.quenchedCq &&& c.p0.toNat) } d))

/-- A command fetched before `f`, from any ring, has not completed. -/
def olderThan (f : Fetched) (d : Dev) : Bool := d.hif.fetched.any fun g => decide (g.order < f.order)

def fence (c : HostCmd) (d : Dev) : Option Done × Dev :=
  match d.hif.fetched.find? (sameCmd 0x0008 c) with
  | some f => if olderThan f d then (none, d) else (some ok, d)
  | none => (some ok, d)

/-- The FENCE that waits on SQn completes once nothing older is left. -/
def fenceComplete (n : Nat) (d : Dev) : Dev :=
  match d.hif.fetched.find? fun f => f.opcode == 8 && f.begun && f.cmd.sq.val == n with
  | some f => if olderThan f d then d else completeCmd 0x0008 f.cmd ok d
  | none => d

/-! ## Commands -/

def execHifVersionsHostWrite (v : Word) (s : State) := run (versionsHostWrite v) s
def execHifEnable (_v : Word) (s : State) := run (fun d => settle (enableHif d)) s
def execHifDisable (_v : Word) (s : State) := run disableHif s
def execHostInterfaceReset (cause : HifCause) (s : State) := run (hostInterfaceReset cause) s
def execRingEnWrite (cq : Bool) (n : Fin 32) (v : Word) (s : State) := run (fun d => settle (ringCfgWrite cq n.val v d)) s
def execWindowEnWrite (n : Fin 64) (v : Word) (s : State) := run (windowCtrlWrite n.val v) s
def execSluiceClose (s : State) := run closeSluice s
def execSluiceOpen (s : State) := run (fun d => settle (openSluice d)) s
def execBar0BadAccess (write : Bool) (s : State) := run (badAccess write) s
def execDoorbellPoll (stores : List (Nat × List Byte)) (s : State) := run (doorbellPoll stores) s
def execAuthLockoutEnd (s : State) := run lockoutEnd s
def execStatusPageHeartbeat (s : State) := run statusPageWrite s
def execCqCoalesceTimeout (cq : Fin 32) (s : State) := run (coalesceTimeout cq.val) s
def execFenceComplete (sq : Fin 32) (s : State) := run (fenceComplete sq.val) s
def execPcieLinkUp (s : State) := run pcieLinkUp s
def execSluiceDrained (s : State) := run sluiceDrained s
def execNop (c : HostCmd) (s : State) := run (hostExec 0x0000 nop c) s
def execNegotiate (c : HostCmd) (s : State) := run (hostExec 0x0001 negotiate c) s
def execQuench (c : HostCmd) (s : State) := run (hostExec 0x0002 quench c) s
def execUnquench (c : HostCmd) (s : State) := run (hostExec 0x0003 unquench c) s
def execFence (c : HostCmd) (s : State) := run (hostExec 0x0008 fence c) s

end Sys2Proof.Machine
end

