-- ==== Sys2Proof/Machine/Io.lean ====
section
/-! DEFINITION. Io: the rules of the field die's configuration words (R190, R191, R193, R201, R217, R243–R251), and the
commands IO_CONFIG, IO_READ_NOW and COIL_DIAG (R214, R209, R236, R240–R242). -/
namespace Sys2Proof.Machine

/-! ## The words of each resource: reserved bits and ranges. A list answers the offset of the first word at fault. -/

/-- The first of (offset, word good). -/
def wordsBad (l : List (Nat × Bool)) : Option Nat := (l.find? fun p => !p.2).map Prod.fst

/-- No bit outside the fields of a register word is set (R7). -/
def inMask (w mask : Word) : Bool := w &&& ~~~mask == 0#32

def between (lo hi n : Nat) : Bool := decide (lo ≤ n ∧ n ≤ hi)

/-- SOURCE codes valid on a converter (R190). -/
def sourceOk (c s : Nat) : Bool := s == 56 || s == 57 || (if c < 2 then decide (s < 24) else decide (s < 56))

def slotCfgMask : Word := 0xE01F003F#32
def slotFiltMask : Word := 0x00E70F00#32

def slotCfgOk (c : Nat) (w : Word) : Bool :=
  decide (slotGain w ≤ 4) && decide (slotRef w ≤ 2) && sourceOk c (slotSource w) &&
  (!bit w 29 || decide (c < 2 ∧ slotSource w < 24))

/-- ORDER and K of an enabled slot, and the limit of R201. -/
def slotFiltOk (cfg filt : Word) : Bool :=
  let k := fld filt 11 8
  decide (k ≤ 14) && (!bit cfg 31 || (between 1 5 (fld filt 18 16) && decide (4 ≤ k))) &&
  (!bit filt 23 || decide (k ≤ 14 - fld filt 22 21))

def timerMask : Word := 0xBF0FFFFF#32
def timerOk (w : Word) : Bool := !bit w 31 || decide (fld w 19 0 ≠ 0)
def pwmTrigMask : Word := 0xBF00FFFF#32

def uiCfgMask : Word := 0x003F7FCF#32
def uiCfgOk (w : Word) : Bool := decide (fld w 3 0 ≤ 6) && decide (fld w 7 6 ≤ 2)

/-- RNOM and β are positive where LIN uses them. -/
def uiPar0Ok (cfg p : Word) : Bool := decide (fld cfg 7 6 = 0) || F32.gt p F32.zero
def uiPar1Ok (cfg p : Word) : Bool := decide (fld cfg 7 6 ≠ 2) || F32.gt p F32.zero

def aoMask : Word := 0x0FFF0003#32

def tgMask : Word := 0xFF80000F#32
def tgCfgOk (n : Nat) (w : Word) : Bool := between 20 500 (fld w 31 23) && (!bit w 3 || n == 15)
def tgRefOk (w : Word) : Bool := between 64 8192 (fld w 31 16)

def fanMask : Word := 0xFFFFFF07#32
def fanCfgOk (w : Word) : Bool := decide (fld w 31 24 ≤ 100) && decide (fld w 23 16 ≤ 100) && between 1 60 (fld w 15 8)

def sbMask : Word := 0x0000FF03#32
def sbCfgOk (w : Word) : Bool := decide (fld w 15 8 ≠ 0)

/-- COIL_BANK_CFG: ILIM ≤ 0.95 of the bank's full scale, 100 mV over RBANK. -/
def bankCfgOk (w : Word) : Bool :=
  between 16 40 (fld w 5 0) && decide (fld w 15 6 ≤ 1000) &&
  (decide (fld w 23 16 = 0) || (between 2 200 (fld w 23 16) && between 1 240 (fld w 31 24) && decide (fld w 31 24 * fld w 23 16 ≤ 950)))

def chCfgMask : Word := 0xFFDFFF71#32
def chTimeMask : Word := 0xFFFF01FF#32
def chDitherMask : Word := 0x01FF00FF#32
def chLoopMask : Word := 0x0000FFFF#32
def chLimitMask : Word := 0x03FF007F#32

def chCfgOk (w : Word) : Bool := decide (fld w 19 18 ≤ 2) && between 20 1000 (fld w 31 22)
def chTimeOk (w : Word) : Bool := between 1 500 (fld w 8 0)
def chDitherOk (w : Word) : Bool := between 40 400 (fld w 24 16) && decide (fld w 7 0 ≤ 250)
def chLimitOk (w : Word) : Bool := between 1 600 (fld w 25 16) && between 1 100 (fld w 6 0)
def chI2tOk (w : Word) : Bool := F32.finite w && F32.ge w F32.zero

/-- 0.95 of full scale. -/
def fsMost (c : Chan) : Word := F32.mul (F32.rat 95 100) (fullScale c)

/-- A whole channel configuration against the rules of R217 and the ranges of its registers, by word offset + 4 in the
buffer. -/
def chanFault (c : Chan) : Option Nat :=
  wordsBad [(4, inMask c.cfg chCfgMask && chCfgOk c.cfg && decide (fld c.cfg 15 8 < tpk c)),
    (8, F32.ge c.ipk (F32.rat 1 10) && F32.le c.ipk (fsMost c)),
    (12, F32.le c.imin c.imax), (16, F32.le c.imax (fsMost c)),
    (20, inMask c.time chTimeMask && chTimeOk c.time), (24, inMask c.dither chDitherMask && chDitherOk c.dither),
    (28, inMask c.loop chLoopMask), (32, inMask c.limit chLimitMask && chLimitOk c.limit), (36, chI2tOk c.i2t)]

/-! ## Sensor templates (R251) -/

def tmplWord (b : List Byte) (s i : Nat) : Word := wordAt b (4 + 64 * s + 4 * i)

def tmplMasks : List Word :=
  [0xFFFFFFFF#32, 0xFFFFFFFF#32, 0xFFFF0000#32, 0#32, 0x871F001F#32, 0xFFFFFFFF#32, 0xFFFFFFFF#32, 0xFFFFFFFF#32,
   0x871F001F#32, 0xFFFFFFFF#32, 0xFFFFFFFF#32, 0xFFFFFFFF#32, 0#32, 0#32, 0#32, 0#32]

/-- SHIFT in its range, and both bytes of a field in use among those read. -/
def tmplFieldOk (w : Word) (len : Nat) : Bool :=
  decide (fld w 20 16 ≤ 15) && (!bit w 31 || decide (fld w 26 24 + 2 ≤ len))

/-- Offset within the buffer of the first word of template `s` at fault: any field outside its range, of a sensor that is not
polled as well. Sixteen words of zero are no template, and stand for a sensor that is not there (DESIGN CHOICE, log entry
175). -/
def tmplFault (b : List Byte) (s : Nat) : Option Nat :=
  let w := tmplWord b s
  let on := (List.range 16).any fun i => w i != 0#32
  let len := fld (w 2) 31 24
  let crc := fld (w 2) 23 16
  let ok : Nat → Bool := fun i => match i with
    | 0 => !on || decide (fld (w 0) 23 16 ≠ 0)
    | 1 => !on || decide (fld (w 1) 31 24 ≤ 3)
    | 2 => !on || (between 1 8 len && decide (crc ≤ 1) && (crc == 0 || len % 3 == 0))
    | 4 => tmplFieldOk (w 4) len
    | 5 => !bit (w 4) 31 || decide ((w 5).toNat < 0x4FF000)
    | 8 => tmplFieldOk (w 8) len
    | 9 => !bit (w 8) 31 || decide ((w 9).toNat < 0x4FF000)
    | _ => true
  wordsBad ((List.range 16).map fun i => (4 + 64 * s + 4 * i, inMask (w i) (tmplMasks.getD i 0#32) && ok i))

/-- Points of a template as words: fields in use. -/
def tmplPoints (ws : List Word) : List Nat :=
  ((List.range 2).filter fun f => bit (ws.getD (4 + 4 * f) 0#32) 31).map fun f => (ws.getD (5 + 4 * f) 0#32).toNat

def tmplWords (b : List Byte) (s : Nat) : List Word := (List.range 16).map (tmplWord b s)

/-- Points of every template but those this command writes. -/
def otherPoints (d : Dev) (k n : Nat) : List Nat :=
  (List.range 4).flatMap fun j =>
    (busOf d j).templates.flatMap fun t => if j = k ∧ t.1 < n then [] else tmplPoints t.2

/-- The first point of the new templates that is undefined, of another KIND, or in use (R251). -/
def tmplPointFault (d : Dev) (k : Nat) (b : List Byte) (n : Nat) : Option Done :=
  (List.range n).findSome? fun s =>
    let before := (List.range s).flatMap fun r => tmplPoints (tmplWords b r)
    (tmplPoints (tmplWords b s)).findSome? fun id =>
      match recOf d id with
      | none => some (fail stNotFound (wd id))
      | some r =>
        if r.kind ≠ 1 || (otherPoints d k n).contains id || before.contains id then some (fail stConflict) else none

/-! ## Universal inputs: what a written configuration does (R191, R194) -/

/-- The point takes the KIND of the new mode, 0.0 and UNCOMMISSIONED, at once. -/
def rewriteUi (n kind : Nat) (d : Dev) : Dev :=
  let id := predefBase + n
  match recOf d id with
  | none => d
  | some r =>
    let x := withCheck id (setQ { r with value := 0#32, kind := kind, source := srcField n, stamp := fieldNow d } qUncom)
    afterStore id (putRec id r x (verifyChange id r d))

/-- A mode is entered: DRY_CONTACT writes its level, PULSE its count at the next tick. -/
def enterMode (n : Nat) (d : Dev) : Dev :=
  let u := uiOf d n
  if uiMode u = 5 then captureUi n (F32.ofBool (u.level != bit u.cfg 14)) qGood (fieldNow d) d
  else if uiMode u = 6 then setUi n { u with edge := some (fieldNow d) } d
  else d

def writeUi (n : Nat) (cfg par0 par1 : Word) (d : Dev) : Dev :=
  let u := uiOf d n
  let v := { u with cfg := cfg, par0 := par0, par1 := par1 }
  if uiMode v = uiMode u then setUi n v d
  else
    let d := setUi n { v with edge := none, lastValue := 0#32, lastQuality := qUncom, lastStamp := fieldNow d } d
    enterMode n (rewriteUi n (uiKind (uiMode v)) d)

/-- Another capturing slot of the converter serves the input (R213). -/
def captureClash (d : Dev) (c s source : Nat) : Bool :=
  (adcOf d c).cfg.any fun p => p.1 != s && bit p.2 29 && slotSource p.2 == source

def writeSlot2 (c s : Nat) (cfg filt : Word) (d : Dev) : Dev := setAdc c (writeSlotRegs s cfg filt (adcOf d c)) d

/-! ## Coil channels -/

/-- The bank as owner (R241). -/
def ownBank (b : Nat) : Word := srcField (coilPoint (6 * b) 0)

/-- The bank's converter slots and trigger (R218). -/
def bankResources (b : Nat) : List Nat :=
  let c := 2 + b / 4
  ((List.range 16).map fun k => resSlot c (16 * (b % 4) + k)) ++ [resTrigger c (b % 4 + 1)]

/-- The bank's slots: CHAN_I of its channels, then BANK_I which ends the sequence; the filter is
the bank's own, free within the limits of R198, and so is the trigger's delay until channel 0 is first on (log entry 7). -/
def bankSlots (b : Nat) (d : Dev) : Dev :=
  let c := 2 + b / 4
  let j := b % 4
  let a := adcOf d c
  if slotCfg a (16 * j + 6) = wd (at' 31 1 + at' 30 1 + 7 * j) ∧ bit (Tab.get 0#32 a.pwmTrig j) 31 then d
  else
    let f := (freeWord d).toNat
    let filt := wd (at' 16 (1 + f % 5) + at' 8 (4 + f / 8 % 11))
    let put := fun (a : Adc) (k source fin : Nat) => writeSlotRegs (16 * j + k) (wd (at' 31 1 + at' 30 fin + source)) filt a
    let a := (List.range 6).foldl (fun a n => put a n (7 * j + 1 + n) 0) a
    let a := put a 6 (7 * j) 1
    drew (setAdc c { a with pwmTrig := Tab.set 0#32 a.pwmTrig j (wd (at' 31 1 + at' 24 (16 * j) + f / 128 % 65536)) } d)

/-- The configuration words of a channel, replaced. -/
def withWords (c : Chan) (w : Nat → Word) : Chan :=
  { c with cfg := w 0, ipk := w 1, imin := w 2, imax := w 3, time := w 4, dither := w 5, loop := w 6, limit := w 7,
           i2t := w 8 }

/-- ENABLE is cleared on a channel: the current decays fast, requests go, a waiting COIL_CMD is CANCELLED (R217). -/
def disableChan (ch : Nat) (d : Dev) : Dev :=
  let c := chanOf d ch
  if c.st = 5 then d
  else
    let d := withdraw ch stCancelled 0#32 d
    let d := modChan ch (fun c => { leave d c with st := if energised c.st then 4 else 0, queued := none }) d
    if c.st = 2 then startDeferred (ch / 6) d else d

/-- The channel keeps, claims or releases its angle event entry (R224); none where no entry is free. -/
def entryFor (ch : Nat) (c : Chan) (d : Dev) : Option Dev :=
  if chEnabled c && chAngle c then
    match (chanOf d ch).entry with
    | some _ => some d
    | none =>
      match claimEntry (ownBank (ch / 6)) d with
      | (some i, d) => some (modChan ch (fun c => { c with entry := some i }) d)
      | (none, _) => none
  else match (chanOf d ch).entry with
    | some i =>
      let d := if (chanOf d ch).armed then withdraw ch stCancelled 0#32 d else d
      some (releaseEntry i (modChan ch (fun c => { c with entry := none }) d))
    | none => some d

/-- The diagnostic code's point holds the code + 1 from the channel's configuration on (R235, log entry 20). -/
def showDiag (ch : Nat) (d : Dev) : Dev :=
  match recOf d (predefBase + coilPoint ch 3) with
  | some r =>
    if recQ r = qUncom then
      enqueueField (coilPoint ch 3) (F32.ofNat ((chanOf d ch).diag + 1)) qGood (fieldNow d) (srcField (coilPoint ch 3)) d
    else d
  | none => d

/-- Write a channel's configuration words; none where its entry cannot be claimed. -/
def writeChan (ch : Nat) (w : Nat → Word) (d : Dev) : Option Dev :=
  match entryFor ch (withWords (chanOf d ch) w) d with
  | none => none
  | some d =>
    let was := chEnabled (chanOf d ch)
    let d := modChan ch (fun c => withWords c w) d
    some (showDiag ch (if was && !chEnabled (chanOf d ch) then disableChan ch d else d))

/-! ## Analogue outputs, gate outputs, fans, buses -/

def writeAo (n : Nat) (w : Word) (d : Dev) : Dev :=
  let d := setAo n { aoOf d n with cfg := w } d
  if bit w 0 then d else killAo n d

/-- A gate output as owner of its entry, and of the shared ball. -/
def ownTg (n : Nat) : Word := srcField (0x300 + n)
def ownFan (n : Nat) : Word := srcField (0x340 + 2 * n)

/-- An enabled gate output owns an entry; none where no entry is free. -/
def writeTg (n : Nat) (cfg ref : Word) (d : Dev) : Option Dev :=
  let x := tgOf d n
  let stay := bit cfg 1 && bit x.cfg 1
  let x := { x with cfg := cfg, ref := ref, acc := if stay then x.acc else 0#32, firing := stay && x.firing }
  let alt := fun d => if n = 15 then driveFan 7 d else d
  if bit cfg 0 then
    match x.entry with
    | some _ => some (alt (setTg n x d))
    | none =>
      match claimEntry (ownTg n) d with
      | (some i, d) => some (alt (setTg n { x with entry := some i } d))
      | (none, _) => none
  else
    let d := alt (tgQuiet n (setTg n { x with held := none, firing := false } d))
    match x.entry with
    | some i => some (releaseEntry i (setTg n { tgOf d n with entry := none } d))
    | none => some d

def writeFan (n : Nat) (w : Word) (d : Dev) : Dev :=
  let d := setFan n { fanOf d n with cfg := w } d
  if bit w 0 then driveFan n d else killFan n d

def writeBus (k : Nat) (w : Word) (d : Dev) : Dev :=
  let b := busOf d k
  setBus k (if bit w 0 then { b with cfg := w } else { b with cfg := w, phase := [], retry := [], wait := [] }) d

def writeTemplate (k s : Nat) (ws : List Word) (d : Dev) : Dev :=
  let b := busOf d k
  setBus k { b with
    templates := Tab.set [] b.templates s (if ws.all (· == 0#32) then [] else ws)
    failRun := Tab.del b.failRun s, retry := Tab.del b.retry s, phase := Tab.del b.phase s
    wait := Tab.del b.wait s } d

/-! ## IO_CONFIG -/

/-- What the descriptor names. -/
inductive IoTarget
  | ui (n : Nat) | ao (n : Nat) | coil (ch : Nat) | tg (n : Nat) | fan (n : Nat) | bus (k : Nat)
  | slot (c s : Nat) | timer (c : Nat) | pwm (c j : Nat)
  deriving DecidableEq, Repr

def pinTarget (kind i : Nat) : Option IoTarget :=
  match kind with
  | 0 => if i < 48 then some (.ui i) else none
  | 1 => if i < 16 then some (.ao i) else none
  | 2 => if i < 48 then some (.coil i) else none
  | 3 => if i < 16 then some (.tg i) else none
  | 4 => if i < 8 then some (.fan i) else none
  | 5 => if i < 4 then some (.bus i) else none
  | _ => none

def ioTarget (w : Word) : Option IoTarget :=
  let x := fld w 23 0
  match fld w 31 24 with
  | 1 => if x < 65536 then pinTarget (x / 256) (x % 256) else none
  | 3 => if x < 256 then some (.slot (x / 64) (x % 64)) else none
  | 4 => if 64 ≤ x then none else if x % 16 = 0 then some (.timer (x / 16))
         else if x % 16 ≤ 4 ∧ 2 ≤ x / 16 then some (.pwm (x / 16) (x % 16 - 1)) else none
  | _ => none

/-- The host's own resource of a target, and what it takes with it under another name (R242). -/
def ioRes : IoTarget → Nat
  | .ui n => resPin 0 n
  | .ao n => resPin 1 n
  | .coil ch => resPin 2 ch
  | .tg n => resPin 3 n
  | .fan n => resPin 4 n
  | .bus k => resPin 5 k
  | .slot c s => resSlot c s
  | .timer c => resTrigger c 0
  | .pwm c j => resTrigger c (j + 1)

/-- The block that takes the TG15/FAN7 ball with this target. -/
def ioAlt : IoTarget → Option Word
  | .tg 15 => some (ownTg 15)
  | .fan 7 => some (ownFan 7)
  | _ => none

/-- Claim a list of (resources, owner): every check before the first claim. -/
def claimSets (l : List (List Nat × Word)) (d : Dev) : Option ClaimFail × Dev :=
  match l.findSome? fun p => claimCheck p.1 p.2 d with
  | some x => (some x, d)
  | none =>
    let new := (l.flatMap Prod.fst).filter fun r => (ownerOf d r).isNone
    if 512 < d.out.owners.length + new.length then (some .full, d)
    else (none, forEach l (fun p d => claimAll p.1 p.2 d) d)

/-- Words a configuration needs in its buffer. -/
def ioLen (t : IoTarget) (c : HostCmd) : Nat :=
  match t with
  | .ui _ => if between 1 4 (fld (wordAt c.buf 0) 3 0) then 20 else 12
  | .ao _ => 4
  | .coil _ => 40
  | .tg _ => 8
  | .fan _ => 4
  | .bus _ => 4 + 64 * c.count.toNat
  | .slot _ _ => 8
  | .timer _ => 4
  | .pwm _ _ => 4

/-- Offset of the first field of the buffer that breaks its rules. -/
def ioFault (t : IoTarget) (c : HostCmd) : Option Nat :=
  let w := fun (i : Nat) => wordAt c.buf (4 * i)
  match t with
  | .ui n =>
    let base := [(0, inMask (w 0) uiCfgMask && uiCfgOk (w 0)), (4, uiPar0Ok (w 0) (w 1)), (8, uiPar1Ok (w 0) (w 2))]
    if between 1 4 (fld (w 0) 3 0) then
      wordsBad (base ++
        [(12, inMask (w 3) slotCfgMask && slotCfgOk (uiAdc n) (w 3) && bit (w 3) 29 && slotSource (w 3) == n % 24),
         (16, inMask (w 4) slotFiltMask && slotFiltOk (w 3) (w 4))])
    else wordsBad base
  | .ao _ => wordsBad [(0, inMask (w 0) aoMask)]
  | .coil _ =>
    (wordsBad [(0, bankCfgOk (w 0) && decide (fld (w 0) 23 16 ≠ 0))]).or (chanFault (withWords {} fun i => w (i + 1)))
  | .tg n => wordsBad [(0, inMask (w 0) tgMask && tgCfgOk n (w 0)), (4, tgRefOk (w 1))]
  | .fan _ => wordsBad [(0, inMask (w 0) fanMask && fanCfgOk (w 0))]
  | .bus _ => (wordsBad [(0, inMask (w 0) sbMask && sbCfgOk (w 0))]).or
      ((List.range c.count.toNat).findSome? fun s => tmplFault c.buf s)
  | .slot k _ => wordsBad [(0, inMask (w 0) slotCfgMask && slotCfgOk k (w 0)), (4, inMask (w 1) slotFiltMask && slotFiltOk (w 0) (w 1))]
  | .timer _ => wordsBad [(0, inMask (w 0) timerMask && timerOk (w 0))]
  | .pwm _ _ => wordsBad [(0, inMask (w 0) pwmTrigMask)]

/-- What a configuration claims. -/
def ioClaims (t : IoTarget) (c : HostCmd) : List (List Nat × Word) :=
  let alt := match ioAlt t with
    | some o => [([resAlt], o)]
    | none => []
  let own := match t with
    | .ui n => if between 1 4 (fld (wordAt c.buf 0) 3 0) then [resSlot (uiAdc n) (fld (wordAt c.buf 0) 21 16)] else []
    | _ => []
  let bank := match t with
    | .coil ch => [(bankResources (ch / 6), ownBank (ch / 6))]
    | _ => []
  [(ioRes t :: own, ownHost)] ++ alt ++ bank

/-- A fail value outside the envelope of its output: the limit (R382). -/
def failBreak (t : IoTarget) (w0 : Word) (d : Dev) : Option Word :=
  match t with
  | .ao n => envelopeBreak d (aoId n) (F32.rat (fld w0 27 16 * 10) 4095)
  | .fan n => envelopeBreak d (fanId n) (F32.ofNat (fld w0 31 24))
  | _ => none

/-- A rule about other objects that the configuration breaks. -/
def ioConflict (t : IoTarget) (c : HostCmd) (d : Dev) : Option Done :=
  let w := fun (i : Nat) => wordAt c.buf (4 * i)
  match t with
  | .ui n =>
    if between 1 4 (fld (w 0) 3 0) && captureClash d (uiAdc n) (fld (w 0) 21 16) (n % 24) then some (fail stConflict) else none
  | .slot k s => if bit (w 0) 29 && captureClash d k s (slotSource (w 0)) then some (fail stConflict) else none
  | .bus k => tmplPointFault d k c.buf c.count.toNat
  | t => (failBreak t (w 0) d).map fun l => fail stEnvelope l

/-- The write itself; none where an angle event entry is wanting. -/
def ioWrite (t : IoTarget) (c : HostCmd) (d : Dev) : Option Dev :=
  let w := fun (i : Nat) => wordAt c.buf (4 * i)
  match t with
  | .ui n =>
    let d := if between 1 4 (fld (w 0) 3 0) then writeSlot2 (uiAdc n) (fld (w 0) 21 16) (w 3) (w 4) d else d
    some (writeUi n (w 0) (w 1) (w 2) d)
  | .ao n => some (writeAo n (w 0) d)
  | .coil ch =>
    (writeChan ch (fun i => w (i + 1)) d).map fun d =>
      bankSlots (ch / 6) (setBank (ch / 6) { bankOf d (ch / 6) with cfg := w 0 } d)
  | .tg n => writeTg n (w 0) (w 1) d
  | .fan n => some (writeFan n (w 0) d)
  | .bus k =>
    some (forRange c.count.toNat (fun s d => writeTemplate k s (tmplWords c.buf s) d) (writeBus k (w 0) d))
  | .slot k s => some (writeSlot2 k s (w 0) (w 1) d)
  | .timer k => some (setAdc k { adcOf d k with timer := w 0 } d)
  | .pwm k j => some (setAdc k { adcOf d k with pwmTrig := Tab.set 0#32 (adcOf d k).pwmTrig j (w 0) } d)

def ioRelease (t : IoTarget) (d : Dev) : Option Done × Dev :=
  match releaseCheck [ioRes t] ownHost d with
  | some x => (some (claimError x), d)
  | none =>
    let alt := match ioAlt t with
      | some o => if ownerOf d resAlt = some o then [resAlt] else []
      | none => []
    (some ok, releaseAll (ioRes t :: alt) d)

/-- Claims stand only with the write. -/
def ioApply (t : IoTarget) (c : HostCmd) (d : Dev) : Option Done × Dev :=
  let k := claimSets (ioClaims t c) d
  match k.1 with
  | some x => (some (claimError x), d)
  | none =>
    match ioWrite t c k.2 with
    | some d => (some ok, d)
    | none => (some (fail stNoCapacity), d)

def ioConfig (c : HostCmd) (d : Dev) : Option Done × Dev :=
  match ioTarget c.target with
  | none => (some (badField 0x08), d)
  | some t =>
    if bit c.p0 0 then ioRelease t d
    else
      let isBus := match t with
        | .bus _ => true
        | _ => false
      if (isBus && decide (16 < c.count.toNat)) || (!isBus && c.count != 0#32) then (some (badField 0x0C), d)
      else if shortBuf c (ioLen t c) then (some (badField 0x28), d)
      else match ioFault t c with
        | some o => (some (badBuf o), d)
        | none =>
          match ioConflict t c d with
          | some x => (some x, d)
          | none => ioApply t c d

/-! ## IO_READ_NOW (R207–R209) -/

/-- What modes 5 and 6 return: the accepted level, inverted as the point is, or the count. -/
def uiNow (d : Dev) (n : Nat) : Word :=
  let u := uiOf d n
  if uiMode u = 5 then F32.ofBool (u.level != bit u.cfg 14) else F32.ofNat u.count

def ioReadNow (c : HostCmd) (d : Dev) : Option Done × Dev :=
  match ioTarget c.target with
  | some (.ui n) =>
    let m := uiMode (uiOf d n)
    if m = 0 then (some (fail stConflict), d)
    else if 5 ≤ m then (some (readNowDone (uiNow d n) qGood (fieldNow d)), d)
    else if retired d (unitAdc (uiAdc n)) then (some (fail stRetired (wd (unitAdc (uiAdc n)))), d)
    else match requestUrgent (uiAdc n) (.readNow n (some c)) d with
      | some d => (none, d)
      | none => (some (fail stNotReady), d)
  | _ => (some (badField 0x08), d)

/-! ## COIL_DIAG (R236) -/

def coilDiag (c : HostCmd) (d : Dev) : Option Done × Dev :=
  if 48 ≤ c.target.toNat then (some (badField 0x08), d)
  else
    let ch := c.target.toNat
    let d := startDiag ch d
    (none, { d with coil := { d.coil with diagWait := d.coil.diagWait ++ [(ch, c)] } })

def execIoConfig (c : HostCmd) (s : State) := run (hostExec 0x0501 ioConfig c) s
def execIoReadNow (c : HostCmd) (s : State) := run (hostExec 0x0502 ioReadNow c) s
def execCoilDiag (c : HostCmd) (s : State) := run (hostExec 0x0505 coilDiag c) s

end Sys2Proof.Machine
end

