-- ==== Sys2Proof/Machine/Nvm.lean ====
section
/-! DEFINITION. Nvm: the non-volatile memory: records, wear counters, compaction, the raw area, the power-up scan
(R412–R429). -/
namespace Sys2Proof.Machine

def setNvm (n : Nvm) (d : Dev) : Dev := { d with nvm := n }

/-! ## The record store: 256 sectors of 16 pages (R413) -/

def storeSectors : Nat := 256
def storePages : Nat := 4096

def usedIn (n : Nvm) (s : Nat) : Nat := Tab.get 0 n.sectorUsed s
def usedPages (n : Nvm) : Nat := (n.sectorUsed.map Prod.snd).sum
def freePages (n : Nvm) : Nat := storePages - usedPages n
def freePct (n : Nvm) : Nat := freePages n * 100 / storePages

/-- The write point: the sector being filled, or the next erased one. -/
def writePoint (n : Nvm) : Option Nat :=
  if usedIn n n.writeSector < 16 then some n.writeSector
  else ((List.range storeSectors).map fun i => (n.writeSector + 1 + i) % storeSectors).find? fun s => usedIn n s == 0

/-- Program the next erased page: its page number. -/
def takePage (n : Nvm) : Option (Nat × Nvm) :=
  (writePoint n).map fun s =>
    (16 * s + usedIn n s, { n with writeSector := s, sectorUsed := Tab.set 0 n.sectorUsed s (usedIn n s + 1) })

/-- Live copies in a sector: record and copy. -/
def liveIn (n : Nvm) (s : Nat) : List (Nat × Copy) :=
  n.records.flatMap fun p => (p.2.filter fun c => c.page / 16 == s).map fun c => (p.1, c)

def staleIn (n : Nvm) (s : Nat) : Nat := usedIn n s - (liveIn n s).length

/-! ## Records (R414–R417) -/

def copiesOf (n : Nvm) (id : Nat) : List Copy := (Tab.find n.records id).getD []

def topSeq (l : List Copy) : Nat := l.foldl (fun m c => max m c.seq) 0

/-- The committed copies with a new one, the two of highest sequence kept; newest first. -/
def addCopy (c : Copy) (l : List Copy) : List Copy :=
  let older := l.foldl (fun (b : Option Copy) x =>
    match b with
    | none => some x
    | some y => if y.seq < x.seq then some x else some y) none
  c :: older.toList

/-- Two highest copies of equal sequence and different content. -/
def inConflict (l : List Copy) : Bool :=
  let t := topSeq l
  l.any fun x => l.any fun y => x.seq == t && y.seq == t && x.payload != y.payload

/-- Of the highest copies the one at the lower address; then the others. -/
def newestCopy (l : List Copy) : Option Copy :=
  (l.filter fun c => c.seq == topSeq l).foldl (fun (b : Option Copy) x =>
    match b with
    | none => some x
    | some y => if x.page < y.page then some x else some y) none

def otherCopy (l : List Copy) (c : Copy) : Option Copy := newestCopy (l.filter fun x => x.seq != c.seq)

/-! ## Compaction (R427, R428) -/

/-- The pass has reached 25 % erased pages, 150 sectors, or a store with no stale page to reclaim. -/
def fullestStale (n : Nvm) : Option Nat :=
  ((List.range storeSectors).foldl (fun (b : Nat × Option Nat) s =>
    if s ≠ n.writeSector ∧ b.1 < staleIn n s then (staleIn n s, some s) else b) (0, none)).2

def passOver (n : Nvm) : Bool :=
  decide (1024 ≤ freePages n) || decide (150 ≤ n.freed) || (fullestStale n).isNone

/-- Move one live copy to the write point. -/
def moveCopy (p : Nat × Copy) (n : Nvm) : Nvm :=
  match takePage n with
  | none => n
  | some (a, n) =>
    { n with records := Tab.upd n.records p.1 fun l => l.map fun c => if c = p.2 then { c with page := a } else c }

/-- Start the next sector of a pass: its live copies move, and its erase begins. -/
def reclaim (n : Nvm) : Nvm :=
  if !n.compacting || n.hold || n.erasing.isSome || n.running.isSome then n
  else match fullestStale n with
    | none => n
    | some s => { (liveIn n s).foldl (fun n p => moveCopy p n) n with erasing := some (128 + s) }

/-! ## Starting work -/

/-- Bytes of a raw page (R429). -/
def rawMark : List Byte := [0x52#8, 0x41#8, 0x57#8, 0x21#8]
def blankPage : List Byte := List.replicate 256 0xFF#8
def rawPage (n : Nvm) (p : Nat) : List Byte := (Tab.find n.rawPages p).getD blankPage

/-- A raw READ: 252 data bytes to the registers and the page's state. -/
def rawCopy (p : Nat) (n : Nvm) : Nvm :=
  let b := rawPage n p
  let blank := b.all (· == 0xFF#8)
  { n with
    rawData := (List.range 63).foldl (fun t w => Tab.set 0#32 t w (wordAt b (4 * w))) n.rawData
    rawErased := blank, rawTornFlag := !blank && b.drop 252 != rawMark }

def isRead : NvmWork → Bool
  | .rawRead _ => true
  | _ => false

/-- Work that starts: a record takes its sequence and page when it ends; a raw PROGRAM of a page that is not erased does
nothing and sets ERR. -/
def beginWork (w : NvmWork) (n : Nvm) : Nvm :=
  match w with
  | .rawRead p => rawCopy p n
  | .rawErase s => { n with erasing := some (384 + s) }
  | .rawProgram p _ =>
    if (rawPage n p).all (· == 0xFF#8) then { n with running := some w, step2 := false } else { n with rawErr := true }
  | .record _ _ _ =>
    match writePoint n with
    | some _ => { n with running := some w, step2 := false }
    | none => reclaim { n with compacting := true, queue := w :: n.queue }
  | .counter _ _ => { n with running := some w, step2 := false }

/-- The controller is free for its queue: scan over, no warning, no program or erase under way. -/
def nvmFree (n : Nvm) : Bool := n.scanDone && !n.hold && n.running.isNone && n.erasing.isNone

/-- Start what waits, in order. -/
def nvmPump : Nat → Nvm → Nvm
  | 0, n => n
  | k + 1, n =>
    if !nvmFree n then n
    else match n.queue with
      | [] => n
      | w :: rest => nvmPump k (beginWork w { n with queue := rest })

def nvmNext (d : Dev) : Dev := setNvm (nvmPump (d.nvm.queue.length + 1) d.nvm) d

/-- The controller takes up its queue, and goes on with a pass that is not over when nothing waits. -/
def nvmGo (d : Dev) : Dev :=
  let d := nvmNext d
  if passOver d.nvm then d else setNvm (reclaim d.nvm) d

def nvmPut (w : NvmWork) (d : Dev) : Dev := nvmNext (setNvm { d.nvm with queue := d.nvm.queue ++ [w] } d)

/-- An automatic pass starts when fewer than 410 pages are erased. -/
def autoCompact (d : Dev) : Dev :=
  if decide (freePages d.nvm < 410) && !d.nvm.compacting && !d.lop.compactHoldoff && !d.nvm.hold &&
     !(d.lop.slots.any fun p => p.2.opcode == 0x0703 && p.2.st != 4) then
    let d := { d with lop := { d.lop with autoCompact := true } }
    setNvm (reclaim { d.nvm with compacting := true, freed := 0 }) d
  else d

/-! ## Ends of programs and erases -/

/-- The counter counts, to its 40 bits (R425). -/
def countUp (k by' : Nat) (n : Nvm) : Nvm :=
  { n with counters := Tab.put n.counters k (min 1099511627775 (Tab.get 0 n.counters k + by')) }

def counterDone (n : Nvm) (k : Nat) : Done :=
  let v := Tab.get 0 n.counters k
  okWith (wd v) (wd (v / 4294967296))

/-- Step 1 of a record write ends: the page is programmed. Step 2: the copy is committed and the write completes. -/
def recordEnd (id : Nat) (payload : List Byte) (cmd : Option HostCmd) (d : Dev) : Dev :=
  if !d.nvm.step2 then setNvm { d.nvm with step2 := true } d
  else
    let n := { d.nvm with running := none, step2 := false }
    let old := copiesOf n id
    let seq := topSeq old + 1
    match takePage n with
    | none => setNvm n d
    | some (a, n) =>
      let d := setNvm { n with records := Tab.put n.records id (addCopy { seq := seq, payload := payload, page := a } old) } d
      match cmd with
      | some c => completeCmd 0x0702 c (okWith (wd seq)) d
      | none => d

def counterEnd (k : Nat) (cmd : Option HostCmd) (d : Dev) : Dev :=
  let d := setNvm (countUp k 1 { d.nvm with running := none }) d
  match cmd with
  | some c => completeCmd 0x0705 c (counterDone d.nvm k) d
  | none => d

/-- PROGRAM writes its bytes, the rest of the data left erased, and then the mark. -/
def rawEnd (p : Nat) (b : List Byte) (n : Nvm) : Nvm :=
  let data := (b ++ List.replicate 252 0xFF#8).take 252
  if !n.step2 then
    { n with step2 := true, rawPages := Tab.put n.rawPages p (data ++ List.replicate 4 0xFF#8) }
  else { n with step2 := false, running := none, rawPages := Tab.put n.rawPages p (data ++ rawMark) }

def programEnd (d : Dev) : Dev :=
  let d := match d.nvm.running with
    | none => d
    | some (.record id b c) => recordEnd id b c d
    | some (.counter k c) => counterEnd k c d
    | some (.rawProgram p b) => setNvm (rawEnd p b d.nvm) d
    | some _ => setNvm { d.nvm with running := none } d
  settle (nvmGo (autoCompact d))

/-- An erased sector, raw or of the record store. -/
def eraseSector (s : Nat) (n : Nvm) : Nvm :=
  let n := { n with erasing := none, erasePaused := false }
  if 384 ≤ s then { n with rawPages := n.rawPages.filter fun p => p.1 / 16 != s - 384 }
  else if 128 ≤ s then { n with sectorUsed := Tab.del n.sectorUsed (s - 128), freed := n.freed + 1 }
  else n

/-- An automatic pass that is over stops. -/
def closeAuto (d : Dev) : Dev :=
  if d.lop.autoCompact && passOver d.nvm then
    setNvm { d.nvm with compacting := false } { d with lop := { d.lop with autoCompact := false } }
  else d

/-- The erase ends; a pass goes on with its next sector unless it is over. -/
def eraseEnd (d : Dev) : Dev :=
  if d.nvm.erasePaused then d
  else match d.nvm.erasing with
    | none => d
    | some s =>
      settle (nvmGo (closeAuto (setNvm (eraseSector s d.nvm) d)))

/-! ## The scan (R418–R420) -/

/-- One uncommitted copy under the recovery mode; its page stays programmed. -/
def scanCopy (x : ScanCopy) (n : Nvm) : Nvm :=
  if n.option = 1 ∧ x.headerOk ∧ x.payloadOk then
    let page := ((takePage n).map Prod.fst).getD 0
    { n with
      completed := satAdd 255 n.completed 1
      sectorUsed := ((takePage n).map fun p => p.2.sectorUsed).getD n.sectorUsed
      records := Tab.put n.records x.id (addCopy { seq := x.seq, payload := x.payload, page := page } (copiesOf n x.id)) }
  else { n with discarded := satAdd 255 n.discarded 1, sectorUsed := ((takePage n).map fun p => p.2.sectorUsed).getD n.sectorUsed }

/-- Increments that were held count now. -/
def applyHeld (n : Nvm) : Nvm :=
  if n.hold then n
  else { n.heldIncs.foldl (fun n p => countUp p.1 p.2 n) n with heldIncs := [] }

def scanEnd (found : List ScanCopy) (torn : Nat) (d : Dev) : Dev :=
  if d.nvm.scanDone then d
  else
    let n := { d.nvm with mode := d.nvm.option, discarded := 0, completed := 0, torn := min 255 torn, reerased := b2n d.nvm.erasing.isSome }
    let n := match n.erasing with
      | some s => eraseSector s n
      | none => n
    let n := found.foldl (fun n x => scanCopy x n) n
    let n := { n with scanDone := true, scanFresh := !d.power.booted, option := n.optionNext.getD n.option, optionNext := none }
    let d := setNvm (applyHeld n) d
    let d := setHif { d.hif with ready := d.power.booted } d
    nvmGo (autoCompact d)

/-! ## Commands -/

def recordId (c : HostCmd) : Nat := c.target.toNat

def nvmRead (c : HostCmd) (d : Dev) : Option Done × Dev :=
  let id := recordId c
  if !d.nvm.scanDone then (some (fail stNotReady), d)
  else if 1024 ≤ id then (some (badField 0x08), d)
  else if shortBuf c 240 then (some (badField 0x28), d)
  else
    let l := copiesOf d.nvm id
    match newestCopy l with
    | none => (some (fail stNotFound (wd id)), d)
    | some x =>
      let give := fun (st : Nat) (y : Copy) (d : Dev) =>
        (some (fail st (wd y.payload.length) (wd y.seq)), outBuf c y.payload d)
      if inConflict l then
        let d := if d.nvm.conflictLogged.contains id then d
          else logE sevWarning 0x030 (wd id) (wd x.seq) (setNvm { d.nvm with conflictLogged := id :: d.nvm.conflictLogged } d)
        give stConflict x d
      else if !x.bad then give stOk x d
      else match otherCopy l x with
        | some y =>
          if y.bad then (some (fail stCheckFail (wd id)), d)
          else give stOk y (setNvm { d.nvm with badCopy := satAdd 15 d.nvm.badCopy 1 } d)
        | none => (some (fail stCheckFail (wd id)), d)

/-- Accepted when its program starts, complete when its COMMIT ends. -/
def nvmWrite (c : HostCmd) (d : Dev) : Option Done × Dev :=
  let id := recordId c
  if !d.nvm.scanDone then (some (fail stNotReady), d)
  else if 1024 ≤ id then (some (badField 0x08), d)
  else if c.bufLen = 0 ∨ 240 < c.bufLen then (some (badField 0x28), d)
  else (none, nvmPut (.record id c.buf (some c)) d)

def nvmCounterRead (c : HostCmd) (d : Dev) : Option Done × Dev :=
  if !d.nvm.scanDone then (some (fail stNotReady), d)
  else if 128 ≤ c.target.toNat then (some (badField 0x08), d)
  else (some (counterDone d.nvm c.target.toNat), d)

def nvmCounterInc (c : HostCmd) (d : Dev) : Option Done × Dev :=
  if !d.nvm.scanDone then (some (fail stNotReady), d)
  else if 128 ≤ c.target.toNat then (some (badField 0x08), d)
  else if c.target.toNat < 64 then (some (fail stConflict), d)
  else (none, nvmPut (.counter c.target.toNat (some c)) d)

/-! ## The raw registers (R429) -/

def rawMask : Word := 0x60FF07FF#32

def rawWorks (n : Nvm) : Bool :=
  let raw := fun (w : NvmWork) => match w with
    | .rawRead _ | .rawProgram _ _ | .rawErase _ => true
    | _ => false
  n.queue.any raw || (n.running.map raw).getD false || (n.erasing.map fun s => decide (384 ≤ s)).getD false

def rawBytes (n : Nvm) (len : Nat) : List Byte :=
  ((List.range 63).flatMap fun w => wordBytes (Tab.get 0#32 n.rawData w)).take len

/-- A write of NVM_RAW_CTRL; with GO its CMD starts. A read waits only for the scan. -/
def rawCtrlWrite (v : Word) (d : Dev) : Dev :=
  let d := setNvm { d.nvm with rawCtrl := v &&& rawMask } d
  let page := fld v 10 0
  let len := fld v 23 16
  if !bit v 31 then d
  else match fld v 30 29 with
    | 1 => if d.nvm.scanDone then setNvm (rawCopy page d.nvm) d else nvmPut (.rawRead page) d
    | 2 =>
      if len = 0 ∨ 252 < len then setNvm { d.nvm with rawErr := true } d
      else nvmPut (.rawProgram page (rawBytes d.nvm len)) d
    | 3 => nvmPut (.rawErase (page / 16)) d
    | _ => d

/-- The value written, its GO and CMD as the row says. -/
def rawGo (cmd : Nat) (v : Word) : Word := setFld (setBit v 31 true) 30 29 cmd

def holdoffEnd (d : Dev) : Dev := autoCompact { d with lop := { d.lop with compactHoldoff := false } }

def execNvmRead (c : HostCmd) (s : State) := run (hostExec 0x0701 nvmRead c) s
def execNvmWrite (c : HostCmd) (s : State) := run (hostExec 0x0702 nvmWrite c) s
def execNvmCounterRead (c : HostCmd) (s : State) := run (hostExec 0x0704 nvmCounterRead c) s
def execNvmCounterInc (c : HostCmd) (s : State) := run (hostExec 0x0705 nvmCounterInc c) s
def execNvmProgramEnd (s : State) := run programEnd s
def execNvmEraseEnd (s : State) := run eraseEnd s
def execNvmScanEnd (found : List ScanCopy) (torn : Nat) (s : State) := run (scanEnd found torn) s
def execCompactionHoldoffEnd (s : State) := run holdoffEnd s
def execRawRead (v : Word) (s : State) := run (rawCtrlWrite (rawGo 1 v)) s
def execRawProgram (v : Word) (s : State) := run (rawCtrlWrite (rawGo 2 v)) s
def execRawErase (v : Word) (s : State) := run (rawCtrlWrite (rawGo 3 v)) s

end Sys2Proof.Machine
end

