-- ==== Sys2Proof/Machine/Sec.lean ====
section
/-! DEFINITION. Sec: sessions, keys, envelopes, attestation (R373–R384), bundles, their validation and activation
(R385–R389), and the memory plan (R61, R63, R361), which a configuration image can carry. -/
namespace Sys2Proof.Machine

def setSec (x : Security) (d : Dev) : Dev := { d with sec := x }

/-- A digest, key or signature at its own length. -/
def fixLen (n : Nat) (b : List Byte) : List Byte := (b ++ List.replicate n 0).take n

/-- The identity key's signature (R373). -/
def identitySign (m : List Byte) : List Byte := fixLen 64 (Config.ecdsaP256Sign (Config.sha256 m))

/-! ## Sessions (R381) -/

def freeSession (d : Dev) : Option Nat := Tab.firstFree d.sec.sessions 8

/-- AUTH_FAIL with its reason, counted (R380). -/
def authFail (reason : Nat) (d : Dev) : Done × Dev := (fail stAuthFail (wd reason), countAuth true d)

def openSession (c : HostCmd) (slot : Nat) (d : Dev) : Done × Dev :=
  let k := c.target.toNat
  let host := c.buf.take 64
  let n := d.sec.draws
  let mine := fixLen 64 (Config.ecdhPublic n)
  let key := fixLen 32 (Config.ecdhHkdf host n
    (Config.serial ++ [BitVec.ofNat 8 slot, BitVec.ofNat 8 k]))
  let s : Session := { key := key, opKey := k, limit := fld c.p0 11 0, lastUse := runSec d, highest := 0, seen := [] }
  let d := setSec { d.sec with sessions := Tab.put d.sec.sessions slot s, draws := n + 1 } d
  (okWith (wd slot), hostWrite (c.bufAddr + 128) (mine ++ identitySign (host ++ mine)) d)

/-- The host's key and its signature fill the first 128 bytes of the buffer, the answer the next 128. -/
def sessionOpen (c : HostCmd) (d : Dev) : Option Done × Dev :=
  let k := c.target.toNat
  let host := c.buf.take 64
  if 16 ≤ k then (some (badField 0x08), d)
  else if fld c.p0 11 0 = 0 ∨ 3600 < fld c.p0 11 0 then (some (badField 0x10), d)
  else if shortBuf c 256 then (some (badField 0x28), d)
  else match Tab.find d.sec.keys k with
    | none => let r := authFail 1 d; (some r.1, r.2)
    | some key =>
      if !Config.onP256 host then (some (badBuf 0), d)
      else if !Config.ecdsaP256Ok key.pub (Config.sha256 (Config.serial ++ host)) ((c.buf.drop 64).take 64) then
        let r := authFail 6 d; (some r.1, r.2)
      else match freeSession d with
        | none => (some (fail stNoCapacity), d)
        | some slot => let r := openSession c slot d; (some r.1, r.2)

def closeSession (n : Nat) (d : Dev) : Dev := setSec { d.sec with sessions := Tab.del d.sec.sessions n } d

def sessionClose (c : HostCmd) (d : Dev) : Option Done × Dev :=
  let n := c.target.toNat
  if 8 ≤ n then (some (badField 0x08), d)
  else if (Tab.find d.sec.sessions n).isNone then (some (fail stNotFound c.target), d)
  else (some ok, closeSession n d)

/-- Sessions of a removed or replaced operator key close. -/
def closeSessionsOf (k : Nat) (d : Dev) : Dev :=
  setSec { d.sec with sessions := d.sec.sessions.filter fun p => p.2.opKey != k } d

/-! ## Technician access (R393, R447, R449) -/

/-- Access ends: each service write is relinquished and leaves the list. -/
def endTech (d : Dev) : Dev :=
  let held := d.tow.services
  let d := { d with tow := { d.tow with tech := false, services := [] } }
  forEach held (fun id => relinquishNow id 1 srcLk) d

/-! ## KEY_ENROLL (R375–R377) -/

def permMask : Word := 0x3F#32
def hasKeys (k : OpKey) : Bool := keyAllows k (some permKeys)

/-- No other slot holds the KEYS permission. -/
def lastKeys (d : Dev) (k : Nat) : Bool :=
  ((Tab.find d.sec.keys k).map hasKeys).getD false && !(d.sec.keys.any fun p => p.1 != k && hasKeys p.2)

def enrollOperator (c : HostCmd) (d : Dev) : Done × Dev :=
  let k := c.target.toNat
  let pub := c.buf.take 64
  let mask := wordAt c.buf 64
  if shortBuf c 68 then (badField 0x28, d)
  else if pub.all (· == 0#8) then
    if lastKeys d k then (fail stConflict, d)
    else (ok, closeSessionsOf k (setSec { d.sec with keys := Tab.del d.sec.keys k } d))
  else if !Config.onP256 pub then (badBuf 0, d)
  else if !inMask mask permMask then (badBuf 64, d)
  else
    (ok, closeSessionsOf k (setSec { d.sec with
      keys := Tab.put d.sec.keys k { pub := pub, mask := mask.toNat, highest := 0 } } d))

/-- The debug key word of object 0x0300. -/
def debugWord : Word := 0xD15AB1ED#32

def disableDebug (c : HostCmd) (d : Dev) : Done × Dev :=
  if shortBuf c 4 then (badField 0x28, d)
  else if wordAt c.buf 0 ≠ debugWord then (badBuf 0, d)
  else if d.sec.debug = 0 then (fail stConflict, d)
  else (ok, setSec { d.sec with debug := 3 } d)

/-- A new SC pair; the old one stays in use. -/
def newScPair (c : HostCmd) (d : Dev) : Done × Dev :=
  let pub := fixLen 64 (Config.ecdhPublic d.sec.draws)
  if shortBuf c 128 then (badField 0x28, d)
  else (ok, outBuf c (pub ++ identitySign pub) (setSec { d.sec with scNew := some pub, draws := d.sec.draws + 1 } d))

def installCert (c : HostCmd) (d : Dev) : Done × Dev :=
  if c.bufLen = 0 ∨ 4096 < c.bufLen then (badField 0x28, d)
  else if d.sec.scNew ≠ some (Config.certKey c.buf) then (fail stConflict, d)
  else (ok, setSec { d.sec with scPair := d.sec.scNew, scCert := some c.buf } d)

def keyEnroll (c : HostCmd) (d : Dev) : Option Done × Dev :=
  let t := c.target.toNat
  let r : Done × Dev :=
    if t < 16 then enrollOperator c d
    else if t = 0x100 then
      if shortBuf c 96 then (badField 0x28, d)
      else if d.sec.oemKey.isSome then (fail stConflict, d)
      else (ok, setSec { d.sec with oemKey := some (c.buf.take 96) } d)
    else if t = 0x101 then
      if shortBuf c 32 then (badField 0x28, d)
      else (ok, endTech (setSec { d.sec with techSecret := some (c.buf.take 32) } d))
    else if t = 0x200 then newScPair c d
    else if t = 0x201 then installCert c d
    else if t = 0x202 then
      if c.bufLen = 0 ∨ 2048 < c.bufLen then (badField 0x28, d)
      else (ok, setSec { d.sec with scAnchor := some c.buf } d)
    else if t = 0x300 then disableDebug c d
    else (badField 0x08, d)
  (some r.1, r.2)

/-! ## ENVELOPE_SET (R382; 4,096 envelopes at most, R413) -/

/-- The local stage of a point: coil, AO, TG or fan. -/
def localStage (id : Nat) : Option Nat := if isPredef id then stageOfOff (id - predefBase) else none

/-- The configured fail value of an output that has one. -/
def failValue (d : Dev) (id : Nat) : Option Word :=
  match localStage id with
  | some k =>
    if 48 ≤ k ∧ k < 64 then some (F32.rat (fld (aoOf d (k - 48)).cfg 27 16 * 10) 4095)
    else if 80 ≤ k ∧ k < 88 then some (F32.ofNat (fld (fanOf d (k - 80)).cfg 31 24))
    else none
  | none => none

def outside (lo hi v : Word) : Bool := F32.lt v lo || F32.gt v hi

/-- First word of the buffer at fault. -/
def envelopeFault (id : Nat) (b : List Byte) : Option Nat :=
  let lo := wordAt b 0
  let hi := wordAt b 4
  let rate := wordAt b 8
  wordsBad [(0, F32.finite lo && F32.le lo hi), (4, F32.finite hi),
    (8, F32.finite rate && F32.ge rate F32.zero && (F32.isZero rate || (localStage id).isSome)), (12, wordAt b 12 == 0#32)]

def envelopeSet (c : HostCmd) (d : Dev) : Option Done × Dev :=
  let id := c.target.toNat
  let lo := wordAt c.buf 0
  let hi := wordAt c.buf 4
  let rate := wordAt c.buf 8
  match recOf d id with
  | none => (some (idFailure id), d)
  | some r =>
    if shortBuf c 16 then (some (badField 0x28), d)
    else match envelopeFault id c.buf with
      | some o => (some (badBuf o), d)
      | none =>
        if F32.isZero lo && F32.isZero hi && F32.isZero rate then
          (some ok, setSec { d.sec with envelopes := Tab.del d.sec.envelopes id } d)
        else if (Tab.find d.sec.envelopes id).isNone && decide (4096 ≤ d.sec.envelopes.length) then (some (fail stNoCapacity), d)
        else if ((failValue d id).map (outside lo hi)).getD false then (some (fail stConflict), d)
        else if commandable r && outside lo hi (prioOf d r).dflt then (some (fail stConflict), d)
        else (some ok, setSec { d.sec with envelopes := Tab.put d.sec.envelopes id ⟨lo, hi, rate⟩ } d)

/-! ## Bundles (R385–R387) -/

/-- The bundle in a slot; slot 0 is A. -/
def slotBytes (d : Dev) (s : Nat) : List Byte := if s = 0 then d.sec.imageA else d.sec.imageB
def slotValid (d : Dev) (s : Nat) : Bool := if s = 0 then d.sec.aValid else d.sec.bValid

def setSlotValid (s : Nat) (v : Bool) (d : Dev) : Dev :=
  setSec (if s = 0 then { d.sec with aValid := v } else { d.sec with bValid := v }) d

def putSlotBytes (s : Nat) (b : List Byte) (d : Dev) : Dev :=
  setSec (if s = 0 then { d.sec with imageA := b } else { d.sec with imageB := b }) d

def bunMagic : List Byte := [0x56#8, 0x53#8, 0x49#8, 0x4D#8]
def bunLen (b : List Byte) (o : Nat) : Nat := (wordAt b (o + 0x10)).toNat
def bunType (b : List Byte) (o : Nat) : Nat := byteAt b (o + 5)
def bunCounter (b : List Byte) (o : Nat) : Nat := byteAt b (o + 6)
def bunSecVersion (b : List Byte) (o : Nat) : Nat := (wordAt b (o + 8)).toNat
def bunVersion (b : List Byte) (o : Nat) : Word := wordAt b (o + 0xC)

/-- Header and payload, to a multiple of 4 KiB. -/
def bunSize (b : List Byte) (o : Nat) : Nat := (512 + bunLen b o + 4095) / 4096 * 4096

def cut (b : List Byte) (o n : Nat) : List Byte := (b.drop o).take n

/-- Offsets of the images of a bundle, and of the field that breaks the chain. A bundle holds five images at most. -/
def bunImages (b : List Byte) : Nat → Nat → List Nat × Option Nat
  | 0, _ => ([], none)
  | k + 1, o =>
    if b.length ≤ o then ([], none)
    else if b.length < o + 512 ∨ cut b o 4 ≠ bunMagic then ([], some o)
    else if b.length < o + bunSize b o then ([], some (o + 0x10))
    else
      let r := bunImages b k (o + bunSize b o)
      (o :: r.1, r.2)

def imagesOf (b : List Byte) : List Nat := (bunImages b 6 0).1

/-- First field of a header at fault, apart from FORMAT. -/
def bunHeaderFault (b : List Byte) (o : Nat) : Option Nat :=
  let t := bunType b o
  let z := fun (i n : Nat) => (cut b (o + i) n).all (· == 0#8)
  (wordsBad [(5, between 1 5 t), (6, if t = 5 then between 4 7 (bunCounter b o) else decide (bunCounter b o ≤ 3)),
    (7, if t = 5 then decide (byteAt b (o + 7) ≤ 1) else byteAt b (o + 7) == 0), (0x14, z 0x14 4),
    (0x48, t != 5 || z 0x48 96), (0x108, z 0x108 248)]).map (o + ·)

/-- Exactly one image of types 1–4 and at most one of type 5: the place of the image too many, or 0. -/
def bunShapeFault (b : List Byte) : Option Nat :=
  let os := imagesOf b
  match os.find? fun o => os.any fun p => decide (p < o) && bunType b p == bunType b o with
  | some o => some (o + 5)
  | none => if [1, 2, 3, 4].all fun t => os.any fun o => bunType b o == t then none else some 0

def payloadOf (b : List Byte) (o : Nat) : List Byte := cut b (o + 512) (bunLen b o)

def digestOk (b : List Byte) (o : Nat) : Bool := fixLen 48 (Config.sha384 (payloadOf b o)) == cut b (o + 0x18) 48

/-- SEC_VERSION against its anti-rollback counter. -/
def versionOk (d : Dev) (b : List Byte) (o : Nat) : Bool :=
  decide (Tab.get 0 d.nvm.counters (bunCounter b o) ≤ bunSecVersion b o)

def signedBy (key b : List Byte) (o off : Nat) : Bool :=
  Config.ecdsaP384Ok key (Config.sha384 (cut b o 0x48)) (cut b (o + off) 96)

def signaturesOk (d : Dev) (b : List Byte) (o : Nat) : Bool :=
  (bunType b o == 5 || signedBy Config.velbenRoot b o 0x48) &&
  (match d.sec.oemKey with
   | some k => signedBy k b o 0xA8
   | none => bunType b o != 5)

/-! ## The memory plan (R61, R63, R361) -/

def planOf (b : List Byte) : Plan :=
  let w := fun (i : Nat) => (wordAt b (4 * i)).toNat
  { pair := bit (wordAt b 0) 8, points := w 1, commandable := w 2, subs := w 3, loopMib := w 4, loops := w 5, zones := w 6 }

/-- First count of a plan beyond its limits. -/
def planFault (b : List Byte) : Option Nat :=
  let p := planOf b
  wordsBad [(0, decide (fld (wordAt b 0) 31 9 = 0)), (4, decide (p.points % 4096 = 0 ∧ p.points ≤ 5238784)),
    (8, between 88 1048576 p.commandable), (0xC, decide (p.subs ≤ 8388608)), (0x10, between 1 256 p.loopMib),
    (0x14, decide (p.loops ≤ 524288 ∧ 16 * p.loops ≤ p.loopMib * 1048576)), (0x18, decide (p.zones ≤ 262144))]

/-- What refuses a plan, apart from one already in force. -/
def planRefused (b : List Byte) : Option Done :=
  if crc32c (b.take 28) ≠ wordAt b 28 then some (fail stCheckFail (crc32c (b.take 28)))
  else if fld (wordAt b 0) 7 0 ≠ 1 then some (fail stVersion (wd (fld (wordAt b 0) 7 0)))
  else match planFault b with
    | some o => some (badBuf o)
    | none => if usableMib < (regionMib (planOf b)).sum then some (fail stNoCapacity) else none

def memplan (c : HostCmd) (d : Dev) : Option Done × Dev :=
  if d.pe.plan.isSome then (some (fail stConflict), d)
  else if shortBuf c 32 then (some (badField 0x28), d)
  else match planRefused c.buf with
    | some x => (some x, d)
    | none =>
      let p := planOf c.buf
      (some (okWith (wd (usableMib - (regionMib p).sum)) (wd usableMib)), { d with pe := { d.pe with plan := some p } })

/-! ## The configuration image (R389) -/

/-- Registers a REGISTERS item may name, and the bits it may reach. -/
def configRegs : List (Nat × Word) :=
  [(0x01000000, all1), (0x01000018, all1), (0x01000024, all1), (0x01100000, 0xFF0C#32), (0x01100030, all1),
   (0x01100034, all1), (0x0110017C, 7#32), (0x01700000, 0xFF#32), (0x01A00004, all1), (0x0120F000, all1)]

/-- An entry of a REGISTERS item: address, value, mask. -/
def configEntries (body : List Byte) : List (Word × Word × Word) :=
  (List.range (body.length / 12)).map fun i => (wordAt body (12 * i), wordAt body (12 * i + 4), wordAt body (12 * i + 8))

def entryAllowed (e : Word × Word × Word) : Bool := configRegs.any fun r => r.1 == e.1.toNat && inMask e.2.2 r.2

/-- Items of a payload as (offset, TYPE, body), and whether they overrun it. -/
def configItems (p : List Byte) : Nat → Nat → List (Nat × Nat × List Byte) × Bool
  | 0, _ => ([], false)
  | k + 1, o =>
    let n := halfAt p (o + 2)
    let size := 4 + (n + 3) / 4 * 4
    if p.length < o + 4 ∨ p.length < o + size then ([], true)
    else
      let r := configItems p k (o + size)
      ((o, halfAt p o, cut p (o + 4) n) :: r.1, r.2)

def itemsOf (p : List Byte) : List (Nat × Nat × List Byte) := (configItems p (wordAt p 0).toNat 8).1

/-- Bytes that pad a body. -/
def padOk (p : List Byte) (x : Nat × Nat × List Byte) : Bool :=
  let n := x.2.2.length
  (cut p (x.1 + 4 + n) ((n + 3) / 4 * 4 - n)).all (· == 0#8)

def itemOk (x : Nat × Nat × List Byte) : Bool :=
  let b := x.2.2
  match x.2.1 with
  | 1 => b.length == 4 && inMask (wordAt b 0) 1#32
  | 2 => b.length == 4
  | 3 => b.length == 32 && (planRefused b).isNone
  | 4 => b.length % 12 == 0 && between 1 256 (b.length / 12) && (configEntries b).all entryAllowed
  | 5 => b.length == 4 && inMask (wordAt b 0) 1#32
  | _ => false

/-- Offset within the payload of the first thing wrong with a configuration. -/
def configFault (p : List Byte) : Option Nat :=
  if p.length < 8 ∨ !between 1 16 (wordAt p 0).toNat then some 0
  else if wordAt p 4 ≠ 0#32 then some 4
  else
    let r := configItems p (wordAt p 0).toNat 8
    let twice := fun (x : Nat × Nat × List Byte) => r.1.any fun y => decide (y.1 < x.1) && y.2.1 == x.2.1
    match r.1.find? fun x => !itemOk x || !padOk p x || twice x with
    | some x => some x.1
    | none => if r.2 then some 0 else none

/-! ## Validation (R386–R388) -/

/-- One image: digest, rollback, signatures, configuration. -/
def imageRefused (d : Dev) (b : List Byte) (o : Nat) : Option Done :=
  if !digestOk b o then some (fail stCheckFail)
  else if !signaturesOk d b o then some (fail stAuthFail 6#32)
  else if !versionOk d b o then some (fail stVersion (wd (bunSecVersion b o)))
  else if bunType b o = 5 then (configFault (payloadOf b o)).map fun i => badBuf (o + 512 + i)
  else none

/-- The whole bundle: its chain and headers, then each image. -/
def bundleRefused (d : Dev) (b : List Byte) : Option Done :=
  let r := bunImages b 6 0
  match r.2 with
  | some o => some (badBuf o)
  | none =>
    match r.1.find? fun o => byteAt b (o + 4) != 1 with
    | some o => some (fail stVersion (wd (byteAt b (o + 4))))
    | none =>
      match r.1.findSome? (bunHeaderFault b) with
      | some i => some (badBuf i)
      | none =>
        match bunShapeFault b with
        | some i => some (badBuf i)
        | none => r.1.findSome? (imageRefused d b)

/-- The type of the image that fails a slot's validation. -/
def failingType (d : Dev) (b : List Byte) : Nat :=
  (((imagesOf b).find? fun o => (bunHeaderFault b o).isSome || (imageRefused d b o).isSome).map (bunType b)).getD 1

/-- The factory's bundle stands in slot A until another is staged there (log entry 17). -/
def slotBoots (d : Dev) (s : Nat) : Bool :=
  if s = 0 && d.sec.factory then true else slotValid d s && (bundleRefused d (slotBytes d s)).isNone

/-- Image of a type in a slot. -/
def imageAt (d : Dev) (s t : Nat) : Option Nat := (imagesOf (slotBytes d s)).find? fun o => bunType (slotBytes d s) o == t

def imageVersion (d : Dev) (s t : Nat) : Word :=
  if s = 0 && d.sec.factory then Config.factoryVersion t
  else ((imageAt d s t).map (bunVersion (slotBytes d s))).getD 0#32

/-- Counters rise to the slot's security versions (R388). -/
def raiseCounters (s : Nat) (d : Dev) : Dev :=
  let b := slotBytes d s
  forEach (imagesOf b) (fun o d =>
    let k := bunCounter b o
    { d with nvm := { d.nvm with counters := Tab.put d.nvm.counters k (max (Tab.get 0 d.nvm.counters k) (bunSecVersion b o)) } }) d

/-- The TRIAL slot becomes CONFIRMED (R387, R388). -/
def confirm (d : Dev) : Dev :=
  if !d.sec.trial then d
  else
    let s := d.sec.active
    let d := raiseCounters s (setSec { d.sec with trial := false, confirmed := s :: d.sec.confirmed } d)
    logE sevNotice 0x020 (imageVersion d s 1) (wd s) d

def imageActivate (c : HostCmd) (d : Dev) : Option Done × Dev :=
  let s := c.target.toNat
  if s = d.sec.active ∧ d.sec.trial then (some ok, confirm d)
  else if s < 2 ∧ s ≠ d.sec.active ∧ slotValid d s then
    (some (fail stDeferred), setSec { d.sec with next := s } d)
  else (some (fail stConflict), d)

def trialConfirmation (d : Dev) : Dev := if d.power.booted then confirm d else d

/-! ## ATTEST (R374) -/

def keyBitmap (d : Dev) : Nat := (d.sec.keys.map fun p => 2 ^ p.1).sum

/-- SHA-384 of the active configuration image: header and payload. -/
def configDigest (d : Dev) : List Byte :=
  let s := d.sec.active
  match imageAt d s 5 with
  | some o => fixLen 48 (Config.sha384 (cut (slotBytes d s) o (512 + bunLen (slotBytes d s) o)))
  | none => List.replicate 48 0

def statement (nonce : List Byte) (d : Dev) : List Byte :=
  nonce ++ fixLen 16 Config.serial ++
  wordsBytes ((List.range 4).map fun t => imageVersion d d.sec.active (t + 1)) ++
  wordsBytes ((List.range 8).map fun k => wd (Tab.get 0 d.nvm.counters k)) ++ configDigest d ++
  wordsBytes [wd (at' 24 d.sec.debug + at' 16 d.sec.active + keyBitmap d), (now d).cycle, wd (now d).angle.toNat, wallOrZero d] ++
  List.replicate 32 0

def attest (c : HostCmd) (d : Dev) : Option Done × Dev :=
  if c.target = 0#32 then
    if shortBuf c 256 then (some (badField 0x28), d)
    else
      let m := statement (fixLen 32 c.buf) d
      (some ok, outBuf c (m ++ identitySign m) d)
  else if c.target = 1#32 then
    let chain := Config.certChain.take 2048
    if shortBuf c chain.length then (some (badField 0x28), d)
    else (some (okWith (wd chain.length)), outBuf c chain d)
  else (some (badField 0x08), d)

/-! ## Commands -/

def execSessionOpen (c : HostCmd) (s : State) := run (hostExec 0x0901 sessionOpen c) s
def execSessionClose (c : HostCmd) (s : State) := run (hostExec 0x0902 sessionClose c) s
def execKeyEnroll (c : HostCmd) (s : State) := run (hostExec 0x0903 keyEnroll c) s
def execEnvelopeSet (c : HostCmd) (s : State) := run (hostExec 0x0904 envelopeSet c) s
def execAttest (c : HostCmd) (s : State) := run (hostExec 0x0905 attest c) s
def execImageActivate (c : HostCmd) (s : State) := run (hostExec 0x0907 imageActivate c) s
def execMemplan (c : HostCmd) (s : State) := run (hostExec 0x0807 memplan c) s
def execSessionIdleExpiry (slot : Fin 8) (s : State) := run (closeSession slot.val) s
def execTrialConfirmation (s : State) := run trialConfirmation s

end Sys2Proof.Machine
end

