-- ==== Sys2Proof/Machine/Zone.lean ====
section
/-! DEFINITION. Zone: the zone step (R141–R152, R158–R161), zone commands (R138, R140, R153, R154, R364). -/
namespace Sys2Proof.Machine

def putZone (zid : Nat) (z : Zone) (d : Dev) : Dev :=
  { d with zones := { d.zones with zones := Tab.put d.zones.zones zid z } }

/-! ## Configuration (R140) -/

/-- Offsets that ZONE_DEFINE writes. -/
def cfgOffsets : List Nat := (List.range 55).map (4 * ·) ++ (List.range 6).map (0x150 + 4 * ·)

def sensorPresent (z : Zone) (i : Nat) : Bool := fld (zWord z (0x34 + 4 * i)) 22 0 != absentId

/-- Air sensor i back to IN, or ABSENT, with its runs 0. -/
def resetSensor (i : Nat) (z : Zone) : Zone :=
  zPut (0xE0 + 8 * i) (wd (if sensorPresent z i then 0 else 3 * 16777216)) z

/-- The device's part of a record that starts afresh (R140). -/
def initModel (z : Zone) : Zone :=
  let z := (List.range 4).foldl (fun z i => resetSensor i z) z
  let z := (List.range 8).foldl (fun z j => zPut (0x11C + 4 * j) 0#32 (zPut (0xFC + 4 * j) 0#32 z)) z
  let z := setCov F32.hundred (zPutList 0x168 (List.replicate 6 0#32) z)
  let z := zPut 0x148 (F32.mul (F32.ofNat 4) (F32.mul (zResThr z) (zResThr z)))
    (zPut 0x13C 0#32 (zPut 0x140 F32.nan (zPut 0x144 F32.nan z)))
  let z := zPut 0x14C (wd (at' 24 qUncom)) z
  let z := zPut 0x1DC F32.nan (zPut 0x1D8 F32.nan (zPut 0x1D4 0#32 z))
  let z := zPut 0x1E4 0#32 (zPut 0x1E0 0xFFFFFFFF#32 z)
  { zPut 0x1F0 0#32 (zPut 0x1EC 0#32 z) with
    stepped := false, fc := [], fcSet := 0, noAir := false, phiBad := false, pred := F32.nan, auxSet := [] }

/-- The occupancy inputs that a change of configuration leaves as they were keep their AUX (R147). -/
def keptAux (z new : Zone) : List Nat :=
  z.auxSet.filter fun j =>
    zWord new (0x54 + 4 * j) == zWord z (0x54 + 4 * j) &&
    fld (zWord new (0xA0 + 8 * j)) 31 28 == fld (zWord z (0xA0 + 8 * j)) 31 28

/-- The diversions of a zone's sensors end. -/
def endDiverts (zid : Nat) (d : Dev) : Dev :=
  { d with pe := { d.pe with divert := d.pe.divert.filter fun p => p.2.1 != zid } }

/-- An event of the zone waits: sensor 0–3, 4 air, 5 model (R152). -/
def zNote (k : Nat) (z : Zone) : Zone :=
  if !bit (zWord z 0x28) 23 then z
  else if k < 4 ∧ bit (zWord z 0x1EC) k then
    zField 0x1F0 (8 * k + 7) (8 * k) (satAdd 255 (fld (zWord z 0x1F0) (8 * k + 7) (8 * k)) 1) z
  else zField 0x1EC k k 1 z

def setModel (st : Nat) (z : Zone) : Zone := if zModel z = st then z else zNote 5 (zField 0x14C 31 30 st z)

/-- ZONE_DEFINE restarts the model of a zone that has stepped: events that wait stay, and leaving CONFIDENT or DRIFTING
posts one (R140, R146). -/
def restartModel (old new : Zone) : Zone :=
  let z := zPut 0x1F0 (zWord old 0x1F0) (zPut 0x1EC (zWord old 0x1EC) (initModel new))
  let z := { z with noAir := old.noAir, served := old.served }
  if zModel old = 0 then z else zNote 5 z

/-- A configuration takes effect: the model restarts when THETA, RHO or STEP changed, else it is kept; a sensor whose
point changed starts afresh. -/
def applyEdit (zid : Nat) (ws : Tab Word) (z : Zone) (d : Dev) : Zone × Dev :=
  let at'' := fun off => Tab.get 0#32 ws (off / 4)
  let new := cfgOffsets.foldl (fun z o => zPut o (at'' o) z) z
  let restart := zStep new != zStep z || zWord new 0x30 != zWord z 0x30 || zTheta new != zTheta z
  if restart then ({ restartModel z new with edit := none }, endDiverts zid d)
  else
    let moved := (List.range 4).filter fun i => zWord new (0x34 + 4 * i) != zWord z (0x34 + 4 * i)
    let d := { d with pe := { d.pe with divert := d.pe.divert.filter fun p =>
      !(p.2.1 == zid && moved.contains p.2.2) } }
    ({ moved.foldl (fun z i => resetSensor i z) new with edit := none, auxSet := keptAux z new }, d)

/-! ## Occupancy (R147) -/

/-- Instant evidence and new AUX of input j, and whether the input was usable; `sched` is what schedule SCHED gives. -/
def evidence (d : Dev) (sched : Val) (z : Zone) (j : Nat) : Word × Word × Bool :=
  let cfg := zWord z (0xA0 + 8 * j)
  let aux := zWord z (0x11C + 4 * j)
  let first := !z.auxSet.contains j
  if fld cfg 31 28 = 5 then
    (F32.ofBool (zSchedEn z && usable sched && truth sched.1), aux, false)
  else match member d (zWord z (0x54 + 4 * j)) with
    | none => (F32.zero, aux, false)
    | some v =>
      if !usable v then (F32.zero, aux, false)
      else match fld cfg 31 28 with
        | 1 => (F32.ofBool (!first && F32.gt v.1 aux), v.1, true)
        | 2 => (F32.clamp v.1 F32.zero F32.one, aux, true)
        | 3 =>
          let b := if first then v.1
            else F32.min v.1 (F32.add aux (F32.div (F32.mul (F32.ofNat 10) (F32.ofNat (zStep z))) (F32.ofNat 3600)))
          (F32.clamp (F32.div (F32.sub v.1 b) (F32.ofNat (fld cfg 27 16))) F32.zero F32.one, b, true)
        | 4 => (F32.ofBool (!first && F32.ne v.1 aux), v.1, true)
        | _ => (F32.zero, aux, false)

/-- Fuse occupancy: evidence, P_OCC, OCC_STATE. -/
def fuse (d : Dev) (sched : Val) (z : Zone) : Zone :=
  let used := (List.range 8).filter fun j => decide (fld (zWord z (0xA0 + 8 * j)) 31 28 ≠ 0)
  let z := used.foldl (fun z j =>
    let x := evidence d sched z j
    let tau := F32.ofNat (fld (zWord z (0xA0 + 8 * j)) 15 0)
    let old := F32.mul (zWord z (0xFC + 4 * j)) (F32.exp (F32.neg (F32.div (F32.ofNat (zStep z)) tau)))
    let z := zPut (0xFC + 4 * j) (F32.max x.1 old) (zPut (0x11C + 4 * j) x.2.1 z)
    if x.2.2 && !z.auxSet.contains j then { z with auxSet := z.auxSet ++ [j] } else z) z
  let p := used.foldl (fun p j =>
    F32.mul p (F32.sub F32.one (F32.mul (zWord z (0x9C + 8 * j)) (zWord z (0xFC + 4 * j))))) F32.one
  let occ := F32.sub F32.one p
  let thr := fun h l => F32.div (F32.ofNat (fld (zWord z 0x2C) h l)) (F32.ofNat 65535)
  let z := zPut 0x13C occ z
  if F32.ge occ (thr 31 16) then zField 0x14C 29 28 1 z
  else if F32.le occ (thr 15 0) then zField 0x14C 29 28 0 z
  else z

/-! ## Sensor cross-check (R148–R150) -/

/-- The raw value of air sensor i: the field value kept while SUBSTITUTED, else the point's. -/
def rawOf (d : Dev) (z : Zone) (i : Nat) : Val :=
  if zSstate z i = 1 then (zWord z (0xDC + 8 * i), fld (zWord z (0xE0 + 8 * i)) 7 4)
  else (member d (zWord z (0x34 + 4 * i))).getD nanFault

/-- Mean TA of the neighbours whose AIR_QUALITY is GOOD. -/
def neighbourRef (d : Dev) (z : Zone) : Option Word :=
  let vs := (List.range 8).filterMap fun k =>
    let w := zWord z (0x7C + 4 * k)
    if w = 0xFFFFFFFF#32 then none
    else match zoneOf d (fld w 17 0) with
      | some n => if zAirQ n = qGood && F32.finite (zTa n) then some (zTa n) else none
      | none => none
  if vs.isEmpty then none else some (F32.mean vs)

def setSensor (i st bad good : Nat) (z : Zone) : Zone :=
  zField (0xE0 + 8 * i) 31 24 st (zField (0xE0 + 8 * i) 23 16 (min 255 bad) (zField (0xE0 + 8 * i) 15 8 (min 255 good) z))

/-- One sensor against its references. -/
def checkSensor (d : Dev) (refs : List Word) (i : Nat) (z : Zone) : Zone :=
  if zSstate z i = 3 then z
  else
    let v := rawOf d z i
    let z := zPut (0xDC + 8 * i) v.1 (zField (0xE0 + 8 * i) 7 4 v.2 z)
    let st := zSstate z i
    let bad := fld (zWord z (0xE0 + 8 * i)) 23 16
    let good := fld (zWord z (0xE0 + 8 * i)) 15 8
    if !usable v then (if st = 2 then z else setSensor i 2 0 0 z)
    else
      let z := if st = 2 then setSensor i 0 0 0 z else z
      let st := if st = 2 then 0 else st
      let bad := if st = 2 then 0 else bad
      if v.2 = qOver ∨ refs.isEmpty then z
      else if refs.all fun r => F32.gt (F32.abs (F32.sub v.1 r)) (zSubThr z) then
        (if st = 1 then setSensor i 1 bad 0 z
         else if bad + 1 < 3 then setSensor i 0 (bad + 1) 0 z
         else zNote i (setSensor i 1 3 0 z))
      else if st = 1 then
        (if good + 1 < 10 then setSensor i 1 bad (good + 1) z else zNote i (setSensor i 0 0 0 z))
      else setSensor i 0 0 0 z

/-! ## Air value (R151) -/

def inSensors (z : Zone) : List Nat := (List.range 4).filter fun i => zSstate z i == 0

/-- ta_new and its quality. -/
def airValue (z : Zone) (pred : Word) : Val :=
  let ins := inSensors z
  let clean := ins.filter fun i => fld (zWord z (0xE0 + 8 * i)) 23 16 == 0
  let pick := if clean.isEmpty then ins else clean
  if ins.isEmpty then (if F32.isNaN (zTa z) then nanFault else (pred, qEst))
  else
    (F32.mean (pick.map fun i => zWord z (0xDC + 8 * i)),
     worstQ (pick.map fun i => (0#32, fld (zWord z (0xE0 + 8 * i)) 7 4)))

/-! ## Forecast at a quarter-hour (R154) -/

def forecastNow (d : Dev) (z : Zone) : Zone :=
  if !rtcValid d then zPut 0x1E4 0#32 (zPut 0x1E0 0xFFFFFFFF#32 z)
  else
    let q := (wallTime d).toNat / 900 * 900
    if !z.fc.isEmpty && fcBase z == q && z.fcSet == d.zones.rtcSets then z
    else
      let phi := zPhi z
      let z := zPut 0x1D4 (wd q) (zPut 0x1D8 (zTa z) (zPut 0x1DC (zTm z) z))
      let z := { z with fcSet := d.zones.rtcSets
                        fc := [z.toW, phi.getD 2 0, phi.getD 3 0, zWord z 0x13C, F32.ofBool (zOccupied z)] }
      let tr := trajectory d z
      let z := zPut 0x1E0 (wd (optimalStart d z tr * 65536 + optimalStop d z tr)) z
      zPut 0x1E4 (offsetOf z tr) z

/-! ## Identification and the state of the model (R145, R146) -/

def within' (z : Zone) : Bool := F32.le (F32.sqrt (zWord z 0x148)) (zResThr z) && F32.le (trace z) F32.one

def judgeModel (z : Zone) : Zone :=
  let ok := within' z
  let n := if ok then satAdd 65535 (zConf z) 1 else 0
  let z := zField 0x14C 15 0 n z
  if zModel z = 1 then (if ok then z else setModel 2 z)
  else if 86400 ≤ n * zStep z then setModel 1 z
  else z

/-- A fit takes effect (R162): ρ, θ1–θ6, mean squared residual. -/
def applyFit (f : List Word) (z : Zone) : Zone :=
  let z := zPut 0x30 (f.getD 0 0) (zPutList 0x150 ((f.drop 1).take 6) z)
  let z := setCov (F32.rat 1 10) (zPut 0x148 (f.getD 7 0) z)
  let good := F32.le (F32.sqrt (f.getD 7 0)) (zResThr z)
  let z := zField 0x14C 15 0 (if good then min 65535 (86400 / zStep z) else 0) z
  { setModel (if good then 1 else 0) z with fit := none }

/-! ## Engines (R142, R158, R161) -/

/-- The engines that carry a zone: both for a roped one, the parity's for a solo one; the surviving engine carries all
as solo. -/
def zoneEngines (d : Dev) (zid : Nat) (z : Zone) : List Cluster :=
  let live := [Cluster.a, Cluster.b].filter fun c => !retired d (unitZone c)
  if zRoped z && live.length == 2 then live
  else if live.length == 2 then [if zid % 2 = 0 then Cluster.a else Cluster.b]
  else live

/-- The due second of the step that waits: the last one up to the last fabric tick, unless it has been served (R142). -/
def dueSec (d : Dev) (zid : Nat) (z : Zone) : Option Nat :=
  let h := zStep z
  let t := d.zones.tickSec
  if t < zid % h then none
  else
    let s := t - (t - zid % h) % h
    if z.served < s then some s else none

/-- Due seconds that passed while the step before them had not started (R160). -/
def passedOver (z : Zone) (s : Nat) : Nat := (s - z.served - 1) / zStep z

/-- The step due at `s` takes in those that passed before it started (R160). -/
def mergeDue (zid : Nat) (z : Zone) (s : Nat) (d : Dev) : Zone × Dev :=
  let k := passedOver z s
  if k = 0 then (z, d)
  else
    let z := { z with merged := z.merged + k, served := s - zStep z }
    (z, putZone zid z { d with zones := { d.zones with skipped := satAdd 4294967295 d.zones.skipped k } })

/-- Before one waiting step an engine takes another: in due order, roped before solo at one second, then by ascending ID
(R142). -/
def stepBefore (s : Nat) (roped : Bool) (i : Nat) (s' : Nat) (roped' : Bool) (i' : Nat) : Bool :=
  decide (s < s') || s == s' && (roped && !roped' || roped == roped' && decide (i < i'))

/-- A step that can start stands before this one on an engine of it. -/
def stepWaits (d : Dev) (zid : Nat) (s : Nat) (cs : List Cluster) : Bool :=
  d.zones.zones.any fun p =>
    let cs' := zoneEngines d p.1 p.2
    p.1 != zid && !p.2.stopped && cs'.any cs.contains && !(cs'.any fun c => testing d (unitZone c)) &&
    match dueSec d p.1 p.2 with
    | some s' => stepBefore s' (cs'.length == 2) p.1 s (cs.length == 2) zid
    | none => false

/-- A step that starts more than h/4 after its due second (R145); the run time counts in rounds of 10 ms (R395). -/
def stepLate (d : Dev) (z : Zone) (s : Nat) : Bool := decide (100 * zStep z < 4 * (d.lk.rounds - 100 * s))

/-- The cluster whose writes and record count. -/
def zoneWriter (d : Dev) (cs : List Cluster) : Cluster :=
  if cs.length = 2 then computeOwner d else cs.headD .a

def zoneSource (d : Dev) (c : Cluster) (zid : Nat) : Word := srcWord 4 (unitOf d c * 1048576 + zid)

/-- One write of a zone (R143, R150). -/
def zoneWrite (id : Nat) (v : Val) (src : Word) (roped : Bool) (d : Dev) : Dev :=
  if id = absentId then d
  else enqueue { id := id, act := .write v.1 v.2 none 0, stamp := now d, source := src, writer := .inner,
                 roped := roped } d

/-! ## The step (R143) -/

/-- Everything of a step up to the writes; `late` forbids identification. -/
def stepModel (d : Dev) (late : Bool) (z : Zone) : Zone :=
  let ta0 := zTa z
  let has := !F32.isNaN ta0
  let q0 := zAirQ z
  let pred := if has then F32.add ta0 (F32.dot (zPhi z) (zTheta z)) else F32.nan
  let z := fuse d (schedRead d (zSched z) 0) z
  let refs := (if has && zModel z == 1 then [pred] else []) ++ (neighbourRef d z).toList
  let z := (List.range 4).foldl (fun z i => checkSensor d refs i z) z
  let air := airValue z pred
  let noIn := (inSensors z).isEmpty
  let z := if noIn && has && !z.noAir then zNote 4 { z with noAir := true }
    else if !noIn && z.noAir then zNote 4 { z with noAir := false } else z
  let weak := fun q => q == qEst || q == qFault
  let skip := !has || bit (zWord z 0) 20 || weak q0 || weak air.2 || z.phiBad || late || z.merged != 0
  let z := if skip then z else identify (F32.sub air.1 ta0) z
  let tm := if has then
      (List.range (z.merged + 1)).foldl (fun tm _ => F32.add tm (F32.mul (zWord z 0x30) (F32.sub ta0 tm))) (zTm z)
    else air.1
  let z := zField 0x14C 27 24 air.2 (zPut 0x140 air.1 (zPut 0x144 tm z))
  let w := (wallTime d).toNat
  let toW := outdoorAt d z w
  let z := { z with toW := toW.getD z.toW, pred := pred }
  let r := regressors d z w toW
  let z := { zPutList 0x168 r.1 z with phiBad := r.2 }
  let z := judgeModel z
  let z := forecastNow d z
  if zOccupied z then z else zPut 0x1E4 0#32 z

/-- Diversions follow the sensor states (R150). -/
def syncDiverts (zid : Nat) (z : Zone) (d : Dev) : Dev :=
  { d with pe := { d.pe with
    divert := (List.range 4).foldl (fun t i =>
      let id := fld (zWord z (0x34 + 4 * i)) 22 0
      if zSstate z i = 1 then Tab.put t id (zid, i) else if sensorPresent z i then
        (if Tab.find t id = some (zid, i) then Tab.del t id else t) else t) d.pe.divert } }

/-- A step that starts with RCHECK false (R141). -/
def badZone (zid : Nat) (z : Zone) (src : Word) (d : Dev) : Dev :=
  let page := unitPage (regionPage d 4 + zid / 8)
  let d := putZone zid { z with stopped := true } d
  let out := fld (zWord z 0x74) 22 0
  let d := if out = absentId then d else
    enqueue { id := out, act := .quality qFault, stamp := now d, source := src, writer := .inner } d
  errorTest page d

/-- A due step of a zone on its engines. One that is not due does not run; one whose engine or whose point engine is
under test waits (R65, R161), and so does one that another step comes before (R142). -/
def zoneStep (zid : Nat) (upset : Bool) (d : Dev) : Dev :=
  match (zoneOf d zid).bind fun z => (dueSec d zid z).map fun s => (z, s) with
  | none => d
  | some (z, s) =>
    let cs := zoneEngines d zid z
    if z.stopped || cs.isEmpty || (cs.any fun c => testing d (unitZone c)) || !pipesServe d || stepWaits d zid s cs then d
    else
      let late := stepLate d z s
      let x := mergeDue zid z s d
      let z := { x.1 with served := s }
      let d := x.2
      let w := zoneWriter d cs
      let src := zoneSource d w zid
      if !z.sound then badZone zid z src d
      else
        let e := match z.edit with
          | some ws => applyEdit zid ws z d
          | none => (z, d)
        let z := match e.1.fit with
          | some f => applyFit f e.1
          | none => e.1
        let d := forEach (memberIds e.2 z) (fun id d => (readRec id d).2) e.2
        let z := stepModel d late z
        let z := { zPut 0x1E8 (wd (runSec d)) z with stepped := true, merged := 0, at' := now d }
        let d := syncDiverts zid z (putZone zid z d)
        let two := decide (cs.length = 2)
        let d := zoneWrite (fld (zWord z 0x74) 22 0) (zTa z, zAirQ z) src two d
        let d := zoneWrite (fld (zWord z 0x78) 22 0) (zWord z 0x1E4, fcQuality z) src two d
        let d := forRange 4 (fun i d =>
          if zSstate z i = 1 then zoneWrite (fld (zWord z (0x34 + 4 * i)) 22 0) (z.pred, qSubst) src two d else d) d
        let d := if d.pair.enabled && !d.pair.dirtyZones.contains zid then
            { d with pair := { d.pair with dirtyZones := d.pair.dirtyZones ++ [zid] } } else d
        let d := if two && upset then
            errorTest (unitZone .b) (errorTest (unitZone .a)
              { d with zones := { d.zones with mismatch := up16 d.zones.mismatch } })
          else d
        settle d

/-- The zone's next due second has come before its step started: the two are merged and the skip is counted (R160). -/
def zoneSkipped (zid : Nat) (d : Dev) : Dev :=
  match zoneOf d zid with
  | none => d
  | some z =>
    if z.stopped then d
    else match dueSec d zid z with
      | some s => (mergeDue zid z s d).2
      | none => d

/-! ## ZONE_DEFINE, ZONE_NEIGHBOURS (R138, R140, R159) -/

def zoneCount (d : Dev) : Nat := (d.pe.plan.map (·.zones)).getD 0

def badIf (b : Bool) (off : Nat) : Option Nat := if b then some off else none

/-- The first configuration field outside its range: offset in the record. -/
def zoneFault (zid : Nat) (z : Zone) : Option Nat :=
  let w := fun o => zWord z o
  let rng := fun o lo hi => badIf (!(F32.ge (w o) lo && F32.le (w o) hi)) o
  let idBad := fun o => badIf (decide (8388608 ≤ (w o).toNat)) o
  let h := fld (w 0) 15 0
  firstSome <|
    [badIf (decide (fld (w 0) 23 22 ≠ 0)) 2, badIf (decide (h ≠ 0 ∧ (h < 15 ∨ 600 < h))) 0,
     rng 0x04 (F32.rat 990 1000) (F32.rat 9999 10000), badIf (!nonNeg (w 0x08)) 0x08, badIf (!nonNeg (w 0x0C)) 0x0C,
     badIf (!F32.lt (w 0x10) (w 0x14)) 0x10,
     badIf (decide (240 < fld (w 0x18) 15 0 ∨ fld (w 0x18) 15 0 % 15 ≠ 0)) 0x18,
     badIf (decide (720 < fld (w 0x18) 31 16 ∨ fld (w 0x18) 31 16 % 15 ≠ 0)) 0x1A,
     badIf (!nonNeg (w 0x1C)) 0x1C, badIf (!nonNeg (w 0x20)) 0x20, badIf (!nonNeg (w 0x24)) 0x24,
     badIf (decide (fld (w 0x28) 15 13 ≠ 0)) 0x29,
     badIf (decide (fld (w 0x28) 22 21 ≠ 0 ∨ fld (w 0x28) 20 16 = 0)) 0x2A,
     badIf (decide (fld (w 0x28) 27 24 ≠ 0)) 0x2B,
     badIf (decide (fld (w 0x2C) 31 16 ≤ fld (w 0x2C) 15 0)) 0x2C,
     rng 0x30 (F32.rat 1 10000) (F32.rat 1 2)] ++
    ((List.range 16).map fun i => idBad (0x34 + 4 * i)) ++ [idBad 0x74, idBad 0x78] ++
    ((List.range 8).map fun k => badIf (w (0x7C + 4 * k) != 0xFFFFFFFF#32 &&
      (decide (262144 ≤ (w (0x7C + 4 * k)).toNat) || (w (0x7C + 4 * k)).toNat == zid)) (0x7C + 4 * k)) ++
    ((List.range 8).flatMap fun j =>
      let c := w (0xA0 + 8 * j)
      let t := fld c 31 28
      if t = 0 then []
      else
        [rng (0x9C + 8 * j) F32.zero F32.one, badIf (decide (5 < t) || (t == 5 && !zSchedEn z)) (0xA3 + 8 * j),
         badIf (decide (fld c 27 16 = 0)) (0xA2 + 8 * j), badIf (decide (fld c 15 0 = 0)) (0xA0 + 8 * j)])

/-- The first member or neighbour that is not defined. -/
def zoneMissing (d : Dev) (z : Zone) : Option Nat :=
  let ids := ((List.range 16).map (0x34 + 4 * ·) ++ [0x74, 0x78]).map fun o => fld (zWord z o) 22 0
  (ids.find? fun id => decide (id ≠ absentId) && (recOf d id).isNone).or
  (((List.range 8).find? fun k => zWord z (0x7C + 4 * k) != 0xFFFFFFFF#32 &&
      (zoneOf d (fld (zWord z (0x7C + 4 * k)) 17 0)).isNone).map fun k => fld (zWord z (0x7C + 4 * k)) 17 0)

/-- AIR_OUT or OFS_OUT that is not a non-commandable ANALOG_VALUE. -/
def zoneConflict (d : Dev) (z : Zone) : Option Nat :=
  ([0x74, 0x78].map fun o => fld (zWord z o) 22 0).find? fun id => match recOf d id with
    | some r => decide (id ≠ absentId) && (r.kind != 3 || commandable r)
    | none => false

/-- A common multiple of every step length, so that loads are whole numbers. -/
def loadUnit : Nat := (List.range 600).foldl (fun a i => Nat.lcm a (i + 1)) 1

/-- What a zone adds to the load of an engine (R159), in steps per second × `loadUnit`. -/
def loadOf (zid : Nat) (z : Zone) (par : Nat) : Nat :=
  if zRoped z || zid % 2 == par then loadUnit / zStep z else 0

/-- Load of an engine: each zone as it is or as a change that waits for its next step will make it, whichever is more. -/
def zoneLoad (zs : Tab Zone) (par : Nat) : Nat :=
  zs.foldl (fun a p => a + max (loadOf p.1 p.2 par)
    (match p.2.edit with
      | some ws => loadOf p.1 { words := ws } par
      | none => 0)) 0

def zoneFits (zid : Nat) (z : Zone) (d : Dev) : Bool :=
  let zs := Tab.put d.zones.zones zid z
  decide (zoneLoad zs 0 ≤ 4400 * loadUnit ∧ zoneLoad zs 1 ≤ 4400 * loadUnit)

/-- The configuration words of a zone with the changes that wait. -/
def cfgWords (z : Zone) : Tab Word :=
  match z.edit with
  | some t => t
  | none => cfgOffsets.foldl (fun t o => Tab.put t (o / 4) (zWord z o)) []

/-- Configuration words checked and put in place: at once, or at the next step of a zone that has stepped. -/
def configureZone (zid : Nat) (ws : Tab Word) (d : Dev) : Option Done × Dev :=
  let z : Zone := { words := ws }
  match zoneFault zid z with
  | some o => (some (badBuf o), d)
  | none =>
    match zoneMissing d z with
    | some id => (some (fail stNotFound (wd id)), d)
    | none =>
      match zoneConflict d z with
      | some _ => (some (fail stConflict), d)
      | none =>
        if !zoneFits zid z d then (some (fail stNoCapacity), d)
        else match zoneOf d zid with
          | some old =>
            if old.stepped && !old.stopped then (some ok, putZone zid { old with edit := some ws } d)
            else (some ok, putZone zid (restartModel old z) (endDiverts zid d))
          | none => (some ok, putZone zid { initModel z with served := runSec d } d)

def zoneDefine (c : HostCmd) (d : Dev) : Option Done × Dev :=
  let zid := c.target.toNat
  if zoneCount d ≤ zid then (some (fail stNoCapacity), d)
  else if shortBuf c 512 then (some (badField 0x28), d)
  else if byteAt c.buf 3 ≠ 1 then (some (fail stVersion (wd (byteAt c.buf 3))), d)
  else configureZone zid (cfgOffsets.foldl (fun t o => Tab.put t (o / 4) (wordAt c.buf o)) []) d

/-- A zone that a command names: one that exists in the memory plan and has been defined (R138). -/
def zoneAt (d : Dev) (zid : Nat) : Option Zone := if zoneCount d ≤ zid then none else zoneOf d zid

def namedZone (c : HostCmd) (d : Dev) : Option Zone := zoneAt d c.target.toNat

/-- NBR0–NBR7 alone, under the rules of ZONE_DEFINE: at the next step of a zone that steps; at once in a record whose
zone has not stepped, or takes no steps until ZONE_DEFINE rewrites it (R140, R141). -/
def configureNeighbours (zid : Nat) (z : Zone) (ws : Tab Word) (d : Dev) : Option Done × Dev :=
  match zoneMissing d { words := ws } with
  | some id => (some (fail stNotFound (wd id)), d)
  | none =>
    let nbr := fun (z : Zone) => (List.range 8).foldl (fun z k => zPut (0x7C + 4 * k) (Tab.get 0#32 ws (0x1F + k)) z) z
    if z.stepped && !z.stopped then (some ok, putZone zid { z with edit := some ws } d)
    else (some ok, putZone zid { nbr z with edit := z.edit.map fun _ => ws } d)

def zoneNeighbours (c : HostCmd) (d : Dev) : Option Done × Dev :=
  match namedZone c d with
  | none => (some (fail stNotFound c.target), d)
  | some z =>
    if shortBuf c 32 then (some (badField 0x28), d)
    else
      let ws := (List.range 8).foldl (fun t k => Tab.put t (0x1F + k) (wordAt c.buf (4 * k))) (cfgWords z)
      match zoneFault c.target.toNat { words := ws } with
      | some o => (some (badBuf (o - 0x7C)), d)
      | none => configureNeighbours c.target.toNat z ws d

/-! ## ZONE_READ, ZONE_WEATHER, ZONE_FORECAST -/

def zoneRead (c : HostCmd) (d : Dev) : Option Done × Dev :=
  match namedZone c d with
  | none => (some (fail stNotFound c.target), d)
  | some z =>
    if 6 < fld c.p0 7 0 ∨ (fld c.p0 7 0 = 6 ∧ 192 < fld c.p0 15 8) then (some (badField 0x10), d)
    else if c.bufLen ≠ 0 ∧ c.bufLen < 512 then (some (badField 0x28), d)
    else
      let v := zoneQuantity d c.target.toNat c.p0
      let d := if c.bufLen = 0 then d else outBuf c (zoneBytes c.target.toNat z) d
      (some (okWith v.1 (wd v.2)), d)

def zoneWeather (c : HostCmd) (d : Dev) : Option Done × Dev :=
  let n := c.count.toNat
  let w := fun o => wordAt c.buf o
  if 16 ≤ c.target.toNat then (some (badField 8), d)
  else if 192 < n then (some (badField 0x0C), d)
  else if shortBuf c (16 + 8 * n) then (some (badField 0x28), d)
  else if 8388608 ≤ (w 0).toNat then (some (badBuf 0), d)
  else if 8388608 ≤ (w 4).toNat then (some (badBuf 4), d)
  else if (w 8).toNat % 900 ≠ 0 then (some (badBuf 8), d)
  else if w 12 ≠ 0#32 then (some (badBuf 12), d)
  else
    let s : Site := { outdoor := (w 0).toNat, solar := (w 4).toNat, start := w 8,
                      rows := (List.range n).map fun k => (w (16 + 8 * k), w (20 + 8 * k)) }
    (some ok, { d with zones := { d.zones with sites := Tab.put d.zones.sites c.target.toNat s } })

def zoneForecast (c : HostCmd) (d : Dev) : Option Done × Dev :=
  match namedZone c d with
  | none => (some (fail stNotFound c.target), d)
  | some z =>
    if shortBuf c (193 * 8) then (some (badField 0x28), d)
    else
      let tr := trajectory d z
      let b := (List.range 193).flatMap fun s => let p := atSec z tr (900 * s); wordBytes p.1 ++ wordBytes p.2
      (some (okWith (zWord z 0x1D4) (zWord z 0x1E0) (wd (fcQuality z))), outBuf c b d)

/-! ## Commands -/

def execZoneStep (zone : Nat) (upset : Bool) (s : State) := run (zoneStep zone upset) s
def execZoneSkipped (zone : Nat) (s : State) := run (zoneSkipped zone) s
def execZoneDefine (c : HostCmd) (s : State) := run (hostExec 0x0301 zoneDefine c) s
def execZoneRead (c : HostCmd) (s : State) := run (hostExec 0x0302 zoneRead c) s
def execZoneNeighbours (c : HostCmd) (s : State) := run (hostExec 0x0303 zoneNeighbours c) s
def execZoneWeather (c : HostCmd) (s : State) := run (hostExec 0x0304 zoneWeather c) s
def execZoneForecast (c : HostCmd) (s : State) := run (hostExec 0x0305 zoneForecast c) s

end Sys2Proof.Machine
end

