-- ==== Sys2Proof/Machine/ZoneFit.lean ====
section
/-! DEFINITION. ZoneFit: the refit of one zone by ZONE_FIT (R162): the trend logs of its members and of AIR_OUT resampled
at h, sixteen values of ρ, batch least squares under the projection of R145, and the least residual kept (log entry 52). -/
namespace Sys2Proof.Machine

/-! ## The logs, resampled -/

/-- Sample-and-hold: the last sample of a log up to a stamp; none before the first one, and none in a gap. -/
def heldAt (t : Stamp) (l : List Sample) : Option Val :=
  match (l.filter fun s => !later s.stamp t).getLast? with
  | some s => if s.type < 2 then some (s.value, s.quality) else none
  | none => none

/-- The log that samples a point, the lowest where there are several. -/
def logOf (d : Dev) (id : Nat) : List Sample :=
  ((d.pe.trends.find? fun p => p.2.point == id).map fun p => p.2.samples).getD []

/-- The device with the zone's members as their logs held them at a stamp. -/
def pastDev (d : Dev) (z : Zone) (t : Stamp) : Dev :=
  forEach (memberIds d z) (fun id e =>
    match recOf e id with
    | some r =>
      let v := (heldAt t (logOf d id)).getD (F32.nan, qUncom)
      putRec id r (withCheck id (setQ { r with value := v.1 } v.2)) e
    | none => e) d

/-- One resampled step: the air value where it can be used, x2–x6, and whether every input could be used. -/
structure FitStep where
  air : Option Word
  regs : List Word
  ok : Bool
  deriving DecidableEq, Repr

/-- The steps of the window, oldest first, with the occupancy fused step by step. -/
def fitSteps (d : Dev) (days : Nat) (z : Zone) : List FitStep :=
  let h := zStep z
  let n := days * 86400 / h
  let ac := acOf10us d (100000 * h)
  let wall := (wallTime d).toNat
  (((List.range (n + 1)).foldl (fun (a : Zone × List FitStep) k =>
    let t := stMinus (now d) ((n - k) * ac)
    let w := wall - (n - k) * h
    let e := pastDev d a.1 t
    let sched : Val := match Tab.find d.sched.scheds (zSched z) with
      | some s => (presentAt d s w, qGood)
      | none => (F32.nan, qUncom)
    let air := ((heldAt t (logOf d (fld (zWord z 0x74) 22 0))).filter fun v => usable v && v.2 != qEst).map Prod.fst
    let y := zPut 0x140 (air.getD F32.zero) (fuse e sched a.1)
    let r := regressors e y w (outdoorAt e y w)
    (y, a.2 ++ [{ air := air, regs := r.1.drop 1, ok := !r.2 }]))
    ({ z with auxSet := [] }, [])).2)

/-- The rows of the regression for one ρ: regressors of a step and the change of Ta to the next. -/
def fitRows (rho : Word) (steps : List FitStep) : List (List Word × Word) :=
  (steps.foldl (fun (a : Option Word × Option (List Word × Word) × List (List Word × Word)) s =>
    match s.air with
    | none => (a.1, none, a.2.2)
    | some ta =>
      let tm := a.1.getD ta
      let rows := match a.2.1 with
        | some p => a.2.2 ++ [(p.1, F32.sub ta p.2)]
        | none => a.2.2
      (some (F32.add tm (F32.mul rho (F32.sub ta tm))),
       if s.ok then some (F32.sub tm ta :: s.regs, ta) else none, rows)) (none, none, [])).2.2

/-! ## Least squares -/

def ratOf (x : Word) : Rat := mkRat (F32.num x) (F32.magDen x)
def ofRatio (q : Rat) : Word := F32.ofRat false q.num q.den

/-- The normal equations, one row of seven per parameter. -/
def normalEqs (rows : List (List Word × Word)) : List (List Rat) :=
  (List.range 6).map fun i => ((List.range 7).map fun j =>
    rows.foldl (fun s r => s + ratOf (r.1.getD i 0) * ratOf (if j < 6 then r.1.getD j 0 else r.2)) 0)

/-- Gauss–Jordan elimination of one column below and above its pivot; a column without one has none. -/
def pivotCol (a : List (List Rat) × List Nat) (c : Nat) : List (List Rat) × List Nat :=
  let r := a.2.length
  match (a.1.drop r).findIdx? fun row => row.getD c 0 != 0 with
  | none => a
  | some i =>
    let row := a.1.getD (r + i) []
    let p := row.map (· / row.getD c 0)
    let others := a.1.eraseIdx (r + i)
    let clear := others.map fun (q : List Rat) => (q.zip p).map fun x => x.1 - q.getD c 0 * x.2
    (clear.take r ++ p :: clear.drop r, a.2 ++ [c])

/-- A parameter vector of least residual; a parameter that the data leave open takes a free value. -/
def leastSquares (free : Nat → Word) (rows : List (List Word × Word)) : List Rat :=
  let e := (List.range 6).foldl pivotCol (normalEqs rows, [])
  (List.range 6).map fun c =>
    match e.2.findIdx? (· == c) with
    | none => ratOf (free c)
    | some k =>
      let q := e.1.getD k []
      (List.range 6).foldl (fun s j => if e.2.contains j then s else s - q.getD j 0 * ratOf (free j)) (q.getD 6 0)

/-- The residual sum of squares. -/
def residual (th : List Word) (rows : List (List Word × Word)) : Rat :=
  rows.foldl (fun s r =>
    let e := ratOf r.2 - ((r.1.zip th).foldl (fun a p => a + ratOf p.1 * ratOf p.2) 0)
    s + e * e) 0

/-- ρ_n = 0.0005·400^(n/15), n = 0–15. -/
def fitRhos : List Word :=
  [0x3A03126F#32, 0x3A436CDB#32, 0x3A91AFE9#32, 0x3AD93750#32, 0x3B21EE96#32, 0x3B716FCB#32, 0x3BB3FCF8#32, 0x3C062DD4#32,
   0x3C480EC5#32, 0x3C952400#32, 0x3CDE5D77#32, 0x3D25C540#32, 0x3D7728ED#32, 0x3DB84135#32, 0x3E095C14#32, 0x3E4CCCCD#32]

/-- The fit of a zone: ρ, θ1–θ6 and the mean squared residual of the least residual of sixteen; none with less than two
days of usable samples. -/
def fitZone (d : Dev) (days : Nat) (z : Zone) : Option (List Word) :=
  let steps := fitSteps d days z
  let tries := fitRhos.zipIdx.map fun p =>
    let rows := fitRows p.1 steps
    let th := (leastSquares (fun j => Config.free (d.drawn + 6 * p.2 + j)) rows).zipIdx.map fun x =>
      project (zSupply z) x.2 (ofRatio x.1)
    (residual th rows, rows.length, p.1 :: th)
  match tries with
  | [] => none
  | t :: ts =>
    let b := ts.foldl (fun b x => if x.1 < b.1 then x else b) t
    if b.2.1 * zStep z < 172800 then none else some (b.2.2 ++ [ofRatio (b.1 / b.2.1)])

end Sys2Proof.Machine
end

