-- ==== Sys2Proof/Machine/Lop.lean ====
section
/-! DEFINITION. Lop: long operations (R367–R372): slots, checkpoints, control, progress, and the nine commands that run
as one. -/
namespace Sys2Proof.Machine

def lopAt (d : Dev) (k : Nat) : Option LongOp := Tab.find d.lop.slots k

def setLops (t : Tab LongOp) (d : Dev) : Dev := { d with lop := { d.lop with slots := t } }

def modLop (k : Nat) (f : LongOp → LongOp) (d : Dev) : Dev := setLops (Tab.upd d.lop.slots k f) d

/-- SLOT_STATE (R368). -/
def lopRunning : Nat := 1
def lopStopping : Nat := 2
def lopSuspended : Nat := 3
def lopEnded : Nat := 4

/-! ## Taking a slot (R367) -/

/-- The lowest FREE slot, else the DONE slot that finished first. -/
def slotToTake (d : Dev) : Option Nat :=
  (Tab.firstFree d.lop.slots 16).or
    ((d.lop.slots.foldl (fun (b : Option (Nat × Nat)) p =>
      if p.2.st ≠ lopEnded then b
      else match b with
        | none => some (p.1, p.2.doneOrder)
        | some x => if p.2.doneOrder < x.2 then some (p.1, p.2.doneOrder) else b) none).map Prod.fst)

/-- One NVM_COMPACT, the automatic one included, and one IMAGE_STAGE at a time. -/
def singleRuns (op : Nat) (d : Dev) : Option Done :=
  if op ≠ 0x0703 ∧ op ≠ 0x0906 then none
  else match d.lop.slots.find? fun p => p.2.opcode == op && p.2.st != lopEnded with
    | some p => some (fail stConflict p.2.cmd.tag (wd p.2.cmd.sq.val))
    | none => if op = 0x0703 ∧ d.lop.autoCompact then some (fail stConflict 0#32 255#32) else none

/-- Why a long operation is not accepted: CONFLICT, THERMAL, NO_CAPACITY, in this order. -/
def lopRefused (op : Nat) (c : HostCmd) (d : Dev) : Option Done :=
  if d.lop.slots.any fun p => p.2.cmd.sq == c.sq && p.2.cmd.tag == c.tag then some (fail stConflict c.tag)
  else match singleRuns op d with
    | some x => some x
    | none =>
      if op ≠ 0x0803 ∧ 6 ≤ d.th.level then some (fail stThermal (wd d.th.level))
      else if (slotToTake d).isNone then some (fail stNoCapacity) else none

def blankLop (op : Nat) (c : HostCmd) (total : Nat) (aux : List Nat) (d : Dev) : LongOp :=
  { cmd := c, opcode := op, st := lopRunning, items := 0, total := total, r0 := 0#32, r1 := 0#32, r2 := 0#32, status := 0
    suspendBy := none, cancelBy := none, cancel := false, doneOrder := 0, reserved := true, progress := false
    checkpoint := now d, pos := 0, aux := aux }

/-- Accept the operation: its slot is RUNNING, `go` begins its work, and it completes with STARTED (R368). -/
def startLop (op : Nat) (c : HostCmd) (total : Nat) (aux : List Nat) (go : Nat → Dev → Dev) (d : Dev) : Option Done × Dev :=
  match lopRefused op c d with
  | some x => (some x, d)
  | none =>
    match slotToTake d with
    | none => (some (fail stNoCapacity), d)
    | some k =>
      (some (fail stStarted (wd k)), go k (setLops (Tab.put d.lop.slots k (blankLop op c total aux d)) d))

/-! ## The end of an operation (R368) -/

/-- The final completion goes to the CQ of its SQ, unless a host-interface reset has come since. -/
def endLop (k st : Nat) (d : Dev) : Dev :=
  match lopAt d k with
  | none => d
  | some l =>
    let n := d.lop.doneCount + 1
    let e := { l with st := lopEnded, status := st, doneOrder := n, reserved := false, progress := false
                      suspendBy := none, cancelBy := none }
    let d := settle { d with lop := { d.lop with doneCount := n, slots := Tab.put d.lop.slots k e } }
    if l.reserved then postCompletion l.opcode l.cmd (fail st l.r0 l.r1 l.r2) d else d

/-! ## The work of each -/

/-- POINT_IMPORT: one entry of the buffer, defined or counted as failed (R362). -/
def importOne (k i : Nat) (d : Dev) : Dev :=
  match lopAt d k with
  | none => d
  | some l =>
    let w := fun (o : Nat) => wordAt l.cmd.buf (40 * i + o)
    let r := if w 4 ≠ 0#32 then (badBuf 4, d)
      else definePoint (w 0).toNat (authorised l.cmd) (fun o => w (8 + o)) badBuf (badBuf 0) d
    modLop k (fun l =>
      if r.1.status = stOk then { l with r0 := l.r0 + 1#32, items := i + 1 }
      else { l with r1 := l.r1 + 1#32, r2 := if l.r1 = 0#32 then wd i else l.r2, items := i + 1 }) r.2

/-- The next block of at most 4,096. -/
def nextBlock (l : LongOp) : Nat := min 4096 (l.total - l.items)

def importWork (k : Nat) (l : LongOp) (d : Dev) : Dev :=
  forEach ((List.range (nextBlock l)).map (l.items + ·)) (importOne k) d

/-- POINT_EXPORT: records in order of ID; an ID that names no point gets the record of POINT_READ_MANY. -/
def exportWork (k : Nat) (l : LongOp) (d : Dev) : Dev :=
  let n := nextBlock l
  let ids := (List.range n).map fun i => l.cmd.target.toNat + l.items + i
  let r := readOne (l.cmd.bufAddr + 32 * l.items) ids (0, 0, 0) d
  modLop k (fun l => { l with items := l.items + n, r0 := wd (l.items + n) }) r.2

/-- TREND_EXPORT: the log at hand, as the operation keeps it: its number, its next sample, the samples still to copy. -/
def logAtHand (l : LongOp) : Nat := l.aux.getD 0 0

/-- The next log of the range that is defined. -/
def nextLog (d : Dev) (l : LongOp) (from' : Nat) : Option Nat :=
  ((List.range l.cmd.count.toNat).map (l.cmd.target.toNat + ·)).find? fun g => decide (from' ≤ g) && (Tab.find d.pe.trends g).isSome

/-- Begin a log: every sample it holds now is to be copied. -/
def beginLog (k g : Nat) (d : Dev) : Dev :=
  match Tab.find d.pe.trends g with
  | some t => modLop k (fun l => { l with aux := [g, (t.total + 4294967295 - t.samples.length) % 4294967295 + 1, t.samples.length] }) d
  | none => d

/-- Copy up to `n` samples of the log at hand to the buffer or the archive's new copy. -/
def copyLog (k n : Nat) (d : Dev) : Dev :=
  match lopAt d k with
  | none => d
  | some l =>
    let g := logAtHand l
    let m := min n (l.aux.getD 2 0)
    let ss := ((Tab.find d.pe.trends g).map fun t => samplesFrom t (l.aux.getD 1 1) m).getD []
    let d := if bit l.cmd.p0 0 then modLop k (fun l => { l with samples := l.samples ++ ss.map fun s => (g, s) }) d
      else hostWrite (l.cmd.bufAddr + 16 * l.items) (ss.flatMap sampleBytes) d
    modLop k (fun l =>
      { l with items := l.items + ss.length, r1 := wd (l.items + ss.length)
               aux := [g, l.aux.getD 1 1 + m, l.aux.getD 2 0 - m] }) d

/-- Up to 4,096 samples, log after log. `n` counts the samples left in this block. -/
def trendBlock (k : Nat) : Nat → Nat → Dev → Dev
  | 0, _, d => d
  | fuel + 1, n, d =>
    match lopAt d k with
    | none => d
    | some l =>
      if l.aux = [] ∨ n = 0 then d
      else
        let m := min n (l.aux.getD 2 0)
        let d := copyLog k m d
        if m < l.aux.getD 2 0 then d
        else
          let d := modLop k (fun l => { l with r0 := l.r0 + 1#32 }) d
          match nextLog d l (logAtHand l + 1) with
          | some g => trendBlock k fuel (n - m) (beginLog k g d)
          | none => modLop k (fun l => { l with aux := [] }) d

def trendWork (k : Nat) (l : LongOp) (d : Dev) : Dev := trendBlock k (l.cmd.count.toNat + 1) 4096 d

/-- The new archive copies take the place of the old ones. -/
def keepArchive (l : LongOp) (d : Dev) : Dev :=
  let logs := ((List.range l.cmd.count.toNat).map (l.cmd.target.toNat + ·)).filter fun g => (Tab.find d.pe.trends g).isSome
  { d with lop := { d.lop with
    archive := logs.foldl (fun t g => Tab.put t g ((l.samples.filter fun p => p.1 == g).map Prod.snd)) d.lop.archive } }

/-- ZONE_FIT: one zone, refitted at its next step, or skipped (R162). -/
def fitWork (k : Nat) (l : LongOp) (d : Dev) : Dev :=
  let z := l.cmd.target.toNat + l.items
  let go := (zoneOf d z).bind (fitZone d l.cmd.p0.toNat)
  let d := { d with drawn := d.drawn + 96 }
  let d := match go with
    | some f => { d with zones := { d.zones with zones := Tab.upd d.zones.zones z fun x => { x with fit := some f } } }
    | none => d
  modLop k (fun l =>
    { l with items := l.items + 1
             r0 := if go.isSome then l.r0 + 1#32 else l.r0, r1 := if go.isSome then l.r1 else l.r1 + 1#32 }) d

/-- SELF_TEST: dispatch the test of the next unit still in service; `pos` 1 while it runs. -/
def testNext (k : Nat) (d : Dev) : Dev :=
  match lopAt d k with
  | none => d
  | some l =>
    match l.aux.dropWhile (retired d) with
    | [] => modLop k (fun l => { l with aux := [], pos := 0 }) d
    | u :: rest =>
      dispatchTest u { blankTest with slot := some k } (modLop k (fun l => { l with aux := rest, pos := 1 }) d)

/-- IMAGE_STAGE: the next 4 KiB (R387). -/
def stageWork (k : Nat) (l : LongOp) (d : Dev) : Dev :=
  let n := l.items + nextBlock l
  modLop k (fun l => { l with items := n }) (putSlotBytes (1 - d.sec.active) (l.cmd.buf.take n) d)

/-- Read back and judged: only an OK marks the slot VALID. -/
def stageVerdict (k : Nat) (d : Dev) : Dev :=
  let s := d.sec.staging.getD (1 - d.sec.active)
  let d := setSec { d.sec with staging := none } d
  match bundleRefused d (slotBytes d s) with
  | some x => endLop k x.status (modLop k (fun l => { l with r0 := x.r0 }) d)
  | none => endLop k stOk (modLop k (fun l => { l with r0 := wd s }) (setSlotValid s true d))

/-- KWELA_SCAN: what has answered so far, in the buffer (R281). -/
def scanWork (k t : Nat) (d : Dev) : Dev :=
  match (trunkOf d t).scan, lopAt d k with
  | some s, some l =>
    let n := l.cmd.count.toNat
    modLop k (fun l =>
      { l with items := s.slot, r0 := wd s.found.length, r1 := wd (at' 16 (min 65535 s.overruns) + min 65535 s.collisions)
               r2 := wd (s.found.length - n) })
      (hostWrite l.cmd.bufAddr ((s.found.take n).flatMap id) d)
  | _, _ => d

def endScan (t : Nat) (d : Dev) : Dev := modTrunk t (fun x => { x with scan := none }) d

/-- The trunk of a scan. -/
def scanTrunk (l : LongOp) : Nat := l.aux.getD 0 0

/-! ### ADC_CAL (R215) -/

def calOf (d : Dev) (k : Nat) : Option CalJob := d.inp.cals.find? fun j => j.slot == some k

/-- The job leaves, and the converters not completed keep their values and go on. -/
def dropCal (k : Nat) (d : Dev) : Dev :=
  match calOf d k with
  | none => d
  | some j =>
    let d := { d with inp := { d.inp with cals := d.inp.cals.filter fun x => x.slot != some k } }
    let d := releaseAll (j.todo.map resCal) d
    match j.todo with
    | [] => d
    | c :: _ =>
      let a := { adcOf d c with calNext := none, calNew := [] }
      setAdc c (match a.run with
        | .cal _ _ => afterUrgent none a
        | _ => a) d

/-- A suspended converter holds; a resumed one begins its gain stage again. -/
def holdCal (k : Nat) (held : Bool) (d : Dev) : Dev :=
  match (calOf d k).bind fun j => j.todo.head? with
  | none => d
  | some c =>
    let a := adcOf d c
    match a.run with
    | .cal g _ => setAdc c { a with run := .cal g held } d
    | _ => d

/-- The mask calibrated so far. -/
def calWork (k : Nat) (d : Dev) : Dev :=
  match calOf d k with
  | some j => modLop k (fun l => { l with r0 := wd j.done, items := l.total - j.todo.length }) d
  | none => d

/-- The lowest named converter that did not complete. -/
def calFailed (l : LongOp) (j : CalJob) : Nat :=
  unitAdc (((List.range 4).find? fun c => bit l.cmd.p0 c && j.done / 2 ^ c % 2 == 0).getD 0)

/-! ## Checkpoints (R369, R372) -/

/-- The work up to the checkpoint. -/
def lopWork (k : Nat) (l : LongOp) (d : Dev) : Dev :=
  match l.opcode with
  | 0x0110 => importWork k l d
  | 0x0111 => exportWork k l d
  | 0x0306 => if l.items < l.total then fitWork k l d else d
  | 0x0503 => calWork k d
  | 0x0606 => scanWork k (scanTrunk l) d
  | 0x0703 => modLop k (fun l => { l with items := d.nvm.freed, r0 := wd d.nvm.freed }) d
  | 0x0906 => stageWork k l d
  | 0x0A03 => trendWork k l d
  | _ => d

/-- Nothing is left to do. -/
def lopComplete (k : Nat) (d : Dev) : Bool :=
  match lopAt d k with
  | none => false
  | some l =>
    match l.opcode with
    | 0x0503 => d.link.coreLost || ((calOf d k).map fun j => j.todo.isEmpty).getD true
    | 0x0606 => ((trunkOf d (scanTrunk l)).scan.map fun s => decide (256 ≤ s.slot)).getD true
    | 0x0703 => passOver d.nvm && d.nvm.erasing.isNone
    | 0x0803 => l.pos == 0 && (l.aux.dropWhile (retired d)).isEmpty
    | 0x0A03 => l.aux.isEmpty
    | _ => decide (l.total ≤ l.items)

/-- The operation has done its work: its final completion. -/
def lopFinal (k : Nat) (d : Dev) : Dev :=
  match lopAt d k with
  | none => d
  | some l =>
    match l.opcode with
    | 0x0503 =>
      (match calOf d k with
       | some j =>
         if d.link.coreLost ∨ j.failed then
           dropCal k (endLop k stHwFault (modLop k (fun l => { l with r0 := wd (calFailed l j) }) d))
         else dropCal k (endLop k stOk d)
       | none => endLop k stHwFault d)
    | 0x0606 => endLop k stOk (endScan (scanTrunk l) d)
    | 0x0703 => endLop k stOk (setNvm { d.nvm with compacting := false } d)
    | 0x0906 => stageVerdict k d
    | 0x0A03 => endLop k stOk (if bit l.cmd.p0 0 then modLop k (fun l => { l with samples := [] }) (keepArchive l d) else d)
    | _ => endLop k stOk d

/-- What a cancellation does to the operation's object (R372). -/
def lopCancelled (k : Nat) (d : Dev) : Dev :=
  match lopAt d k with
  | none => d
  | some l =>
    match l.opcode with
    | 0x0503 => dropCal k d
    | 0x0606 => endScan (scanTrunk l) d
    | 0x0703 => { d with nvm := { d.nvm with compacting := false }, lop := { d.lop with compactHoldoff := true } }
    | 0x0906 => setSec { d.sec with staging := none } d
    | 0x0A03 => modLop k (fun l => { l with samples := [] }) d
    | _ => d

/-- An operation held at its checkpoint, and going on from it. -/
def lopPause (l : LongOp) (k : Nat) (d : Dev) : Dev :=
  match l.opcode with
  | 0x0503 => holdCal k true d
  | 0x0703 => setNvm { d.nvm with compacting := false } d
  | _ => d

/-- A suspended scan slot is repeated from its start (R372). -/
def restartSlot (t : Nat) (d : Dev) : Dev :=
  match (trunkOf d t).scan with
  | none => d
  | some s =>
    let d := modTrunk t (fun x => { x with
      scan := some { s with before := now d, due := stPlus (now d) (acOfUs d 75000) } }) d
    if s.slot < 256 then queueHello t 0xFFFF s.slot d else d

def lopResume (l : LongOp) (k : Nat) (d : Dev) : Dev :=
  match l.opcode with
  | 0x0503 => holdCal k false d
  | 0x0606 => restartSlot (scanTrunk l) d
  | 0x0703 => nvmGo (setNvm { d.nvm with compacting := true } d)
  | 0x0803 => if l.pos = 0 then testNext k d else d
  | _ => d

/-- The final CANCELLED is written, then the controls that wait complete (R370). -/
def cancelLop (k : Nat) (l : LongOp) (d : Dev) : Dev :=
  let d := endLop k stCancelled (lopCancelled k d)
  let d := match l.suspendBy with
    | some c => completeCmd 0x0004 c (fail stCancelled) d
    | none => d
  match l.cancelBy with
  | some c => completeCmd 0x0006 c ok d
  | none => d

def suspendLop (k : Nat) (l : LongOp) (d : Dev) : Dev :=
  let d := lopPause l k (modLop k (fun l => { l with st := lopSuspended, suspendBy := none, progress := l.reserved }) d)
  match l.suspendBy with
  | some c => completeCmd 0x0004 c ok d
  | none => d

/-- A checkpoint is reached: SUSPEND and CANCEL take effect before the operation's own end (R36, R370). A SELF_TEST whose
unit's test still runs has none. -/
def checkpoint (k : Nat) (d : Dev) : Dev :=
  match lopAt d k with
  | none => d
  | some l =>
    if !coreRuns d ∨ (l.st ≠ lopRunning ∧ l.st ≠ lopStopping) ∨ l.pos = 1 then d
    else
      let d := modLop k (fun l => { l with checkpoint := now d }) (lopWork k l d)
      if l.cancel then settle (cancelLop k l d)
      else if l.suspendBy.isSome then settle (suspendLop k l d)
      else if lopComplete k d then settle (lopFinal k d)
      else settle (if l.opcode = 0x0803 then testNext k d else d)

/-- Each second of RUNNING (R371). -/
def progressEvent (k : Nat) (d : Dev) : Dev :=
  settle (modLop k (fun l =>
    if l.st = lopRunning ∨ l.st = lopStopping then { l with progress := l.reserved } else l) d)

/-! ## Control (R370) -/

def findLop (c : HostCmd) (d : Dev) : Option (Nat × LongOp) :=
  d.lop.slots.find? fun p => p.2.cmd.tag == c.target && p.2.cmd.sq.val == fld c.p0 4 0

def suspend (c : HostCmd) (d : Dev) : Option Done × Dev :=
  match findLop c d with
  | none => (some (fail stNotFound c.target), d)
  | some (k, l) =>
    if l.st ≠ lopRunning then (some (fail stConflict), d)
    else (none, modLop k (fun l => { l with st := lopStopping, suspendBy := some c }) d)

def resume (c : HostCmd) (d : Dev) : Option Done × Dev :=
  match findLop c d with
  | none => (some (fail stNotFound c.target), d)
  | some (k, l) =>
    if l.st ≠ lopSuspended then (some (fail stConflict), d)
    else (some ok, lopResume l k (modLop k (fun l => { l with st := lopRunning, progress := l.reserved }) d))

/-- A second CANCEL finds one at work. -/
def cancel (c : HostCmd) (d : Dev) : Option Done × Dev :=
  match findLop c d with
  | none => (some (fail stNotFound c.target), d)
  | some (k, l) =>
    if l.st = lopSuspended then (some ok, endLop k stCancelled (lopCancelled k d))
    else if (l.st = lopRunning ∨ l.st = lopStopping) ∧ !l.cancel then
      (none, modLop k (fun l => { l with st := lopStopping, cancel := true, cancelBy := some c }) d)
    else (some (fail stConflict), d)

def opStatus (c : HostCmd) (d : Dev) : Option Done × Dev :=
  match findLop c d with
  | none => (some (fail stNotFound c.target), d)
  | some (k, l) =>
    if l.st = lopEnded then (some (fail l.status l.r0 l.r1 l.r2), setLops (Tab.del d.lop.slots k) d)
    else
      let e := progressEventOf k l
      (some (fail (if l.st = lopSuspended then stSuspended else stStarted) (wd (lopPct l)) e.r1 e.r2), d)

/-! ## The nine commands -/

def pointImport (c : HostCmd) (d : Dev) : Option Done × Dev :=
  if shortBuf c (40 * c.count.toNat) then (some (badField 0x28), d)
  else startLop 0x0110 c c.count.toNat [] (fun _ => id) d

def pointExport (c : HostCmd) (d : Dev) : Option Done × Dev :=
  if 0x500000 ≤ c.target.toNat then (some (badField 0x08), d)
  else if 0x500000 < c.target.toNat + c.count.toNat then (some (badField 0x0C), d)
  else if shortBuf c (32 * c.count.toNat) then (some (badField 0x28), d)
  else startLop 0x0111 c c.count.toNat [] (fun _ => id) d

/-- Samples the range of logs holds. -/
def rangeSamples (c : HostCmd) (d : Dev) : Nat :=
  ((d.pe.trends.filter fun p => decide (c.target.toNat ≤ p.1 ∧ p.1 < c.target.toNat + c.count.toNat)).map
    fun p => p.2.samples.length).sum

def trendExport (c : HostCmd) (d : Dev) : Option Done × Dev :=
  let n := rangeSamples c d
  if 1048576 ≤ c.target.toNat then (some (badField 0x08), d)
  else if 1048576 < c.target.toNat + c.count.toNat then (some (badField 0x0C), d)
  else if !bit c.p0 0 && shortBuf c (16 * n) then (some (badField 0x28), d)
  else startLop 0x0A03 c n [] (fun k d =>
    match (lopAt d k).bind fun l => nextLog d l c.target.toNat with
    | some g => beginLog k g d
    | none => d) d

def zoneFit (c : HostCmd) (d : Dev) : Option Done × Dev :=
  if !between 2 28 c.p0.toNat then (some (badField 0x10), d)
  else match (List.range (min (max 1 c.count.toNat) (zoneCount d - c.target.toNat + 1))).find? fun k => (zoneAt d (c.target.toNat + k)).isNone with
  | some k => (some (fail stNotFound (c.target + wd k)), d)
  | none => startLop 0x0306 c c.count.toNat [] (fun _ => id) d

def calNames (c : HostCmd) : List Nat := (List.range 4).filter fun i => bit c.p0 i

/-- The converters are claimed, and the first begins. -/
def beginCal (k : Nat) (cs : List Nat) (d : Dev) : Dev :=
  let d := claimAll (cs.map resCal) ownHost
    { d with inp := { d.inp with cals := d.inp.cals ++ [{ slot := some k, todo := cs, done := 0, failed := false }] } }
  match cs with
  | i :: _ => startCal i d
  | [] => d

def adcCal (c : HostCmd) (d : Dev) : Option Done × Dev :=
  let cs := calNames c
  if cs = [] then (some (badField 0x10), d)
  else match cs.find? fun i => retired d (unitAdc i) with
    | some i => (some (fail stRetired (wd (unitAdc i))), d)
    | none =>
      match cs.findSome? fun i => (ownerOf d (resCal i)).map fun o => (o, resCal i) with
      | some p => (some (fail stBusy p.1 (wd p.2)), d)
      | none => startLop 0x0503 c cs.length [] (fun k => beginCal k cs) d

def kwelaScan (c : HostCmd) (d : Dev) : Option Done × Dev :=
  let p := c.target.toNat
  if 24 ≤ p then (some (badField 0x08), d)
  else match kwTrunkOf d p with
    | none => (some (fail stConflict), d)
    | some t =>
      if shortBuf c (16 * c.count.toNat) then (some (badField 0x28), d)
      else if (trunkOf d t).scan.isSome then (some (fail stConflict), d)
      else startLop 0x0606 c 256 [t] (fun k d =>
        queueHello t 0xFFFF 0 (modTrunk t (fun x =>
          { x with scan := some { slot := 0, due := stPlus (now d) (acOfUs d 75000), before := now d, overruns := 0, collisions := 0, found := [], op := k } }) d)) d

def nvmCompact (c : HostCmd) (d : Dev) : Option Done × Dev :=
  if !d.nvm.scanDone then (some (fail stNotReady), d)
  else startLop 0x0703 c ((1024 - min 1024 (freePages d.nvm) + 15) / 16) []
    (fun _ d => setNvm (reclaim { d.nvm with compacting := true, freed := 0 }) d) d

/-- Every unit in turn: all but the DRAM pages, without the retired ones. -/
def allUnits (d : Dev) : List Nat :=
  ((List.range 192).map (unitCode 1) ++ (List.range 8).map (unitCode 2) ++ (List.range 2).map (unitCode 3) ++
   (List.range 4).map unitAdc ++ (List.range 48).map unitChan ++ (List.range 16).map unitCore ++ [unitPipes]).filter
    fun u => !retired d u

def selfTest (c : HostCmd) (d : Dev) : Option Done × Dev :=
  let u := c.target.toNat
  if c.target = all1 then
    let us := allUnits d
    startLop 0x0803 c us.length us testNext d
  else if !unitKnown u then (some (badField 0x08), d)
  else if retired d u then (some (fail stRetired c.target), d)
  else startLop 0x0803 c 1 [u] testNext d

/-- The slot that is not active loses its bundle (R387). -/
def beginStage (d : Dev) : Dev :=
  let s := 1 - d.sec.active
  let d := putSlotBytes s [] (setSlotValid s false d)
  setSec { d.sec with staging := some s, confirmed := d.sec.confirmed.filter (· != s)
                      factory := d.sec.factory && s != 0 } d

def imageStage (c : HostCmd) (d : Dev) : Option Done × Dev :=
  if c.bufLen = 0 then (some (badField 0x28), d)
  else startLop 0x0906 c c.bufLen [] (fun _ => beginStage) d

/-- A device reset ends every long operation; each unfinished one is logged (R370). -/
def endAllOps (d : Dev) : Dev :=
  let live := d.lop.slots.filter fun p => p.2.st != lopEnded
  let d := forEach live (fun p => logE sevNotice 0x032 p.2.cmd.tag (wd p.2.opcode)) d
  { d with lop := { d.lop with slots := [], autoCompact := false, compactHoldoff := false } }

/-! ## Commands -/

def execSuspend (c : HostCmd) (s : State) := run (hostExec 0x0004 suspend c) s
def execResume (c : HostCmd) (s : State) := run (hostExec 0x0005 resume c) s
def execCancel (c : HostCmd) (s : State) := run (hostExec 0x0006 cancel c) s
def execOpStatus (c : HostCmd) (s : State) := run (hostExec 0x0007 opStatus c) s
def execPointImport (c : HostCmd) (s : State) := run (hostExec 0x0110 pointImport c) s
def execPointExport (c : HostCmd) (s : State) := run (hostExec 0x0111 pointExport c) s
def execTrendExport (c : HostCmd) (s : State) := run (hostExec 0x0A03 trendExport c) s
def execZoneFit (c : HostCmd) (s : State) := run (hostExec 0x0306 zoneFit c) s
def execAdcCal (c : HostCmd) (s : State) := run (hostExec 0x0503 adcCal c) s
def execKwelaScan (c : HostCmd) (s : State) := run (hostExec 0x0606 kwelaScan c) s
def execNvmCompact (c : HostCmd) (s : State) := run (hostExec 0x0703 nvmCompact c) s
def execSelfTest (c : HostCmd) (s : State) := run (hostExec 0x0803 selfTest c) s
def execImageStage (c : HostCmd) (s : State) := run (hostExec 0x0906 imageStage c) s
def execLongopCheckpoint (slot : Fin 16) (s : State) := run (checkpoint slot.val) s
def execProgressEvent (slot : Fin 16) (s : State) := run (progressEvent slot.val) s

end Sys2Proof.Machine
end

