-- ==== Sys2Proof/Machine/Lk.lean ====
section
/-! DEFINITION. Lk: the Lock-keeper's housekeeping round, die temperatures, throttle, rails, host watch, logs
(R395–R411, R438). -/
namespace Sys2Proof.Machine

def setLk (l : LockKeeper) (d : Dev) : Dev := { d with lk := l }
def setTh (t : Thermal) (d : Dev) : Dev := { d with th := t }

/-! ## The sensor cross-check (R402–R404) -/

/-- Neighbours of a sensor: 0–11 TS_C on a grid of 3 rows and 4 columns, 12–15 TS_F, 16 TD_F. -/
def nearOf (s : Nat) : List Nat :=
  if s < 12 then
    (if 4 ≤ s then [s - 4] else []) ++ (if s < 8 then [s + 4] else []) ++
    (if s % 4 ≠ 0 then [s - 1] else []) ++ (if s % 4 ≠ 3 then [s + 1] else [])
  else if s = 16 then [12, 13, 14, 15]
  else [12, 13, 14, 15, 16].filter fun k => k != s

def sensorRead (temps : List (Option Word)) (k : Nat) : Option Word := (temps[k]?).join

/-- Readings of the neighbours that count: not failed, and with a reading in this round. -/
def nearReads (gone : List Nat) (temps : List (Option Word)) (s : Nat) : List Word :=
  (nearOf s).filterMap fun k => if gone.contains k then none else sensorRead temps k

/-- How far a sensor lies from the mean of its neighbours. -/
inductive Gap | nothing | missing | away (by' : Word)
  deriving DecidableEq, Repr

def gapOf (gone : List Nat) (temps : List (Option Word)) (s : Nat) : Gap :=
  match sensorRead temps s with
  | none => .missing
  | some v => match nearReads gone temps s with
    | [] => .nothing
    | l => .away (F32.abs (F32.sub v (F32.mean l)))

def gapOff : Gap → Bool
  | .nothing => false
  | .missing => true
  | .away x => F32.gt x (F32.ofNat 8)

/-- The worse of two gaps: no reading is the worst. -/
def gapWorse : Gap → Gap → Bool
  | .missing, .away _ => true
  | .away x, .away y => F32.gt x y
  | _, _ => false

/-- The run of differing rounds after this one. -/
def nextRun (g : Gap) (n : Nat) : Nat :=
  match g with
  | .nothing => n
  | g => if gapOff g then n + 1 else 0

/-- Sensors that are declared failed, or are due to be. -/
def condemned (t : Thermal) : List Nat :=
  (List.range 16).filter fun s => Nat.testBit t.failed s || decide (3 ≤ Tab.get 0 t.runs s)

/-- Of the sensors that differ for the third round the worst is the next to fail and is no neighbour from then on. -/
def condemnRound (temps : List (Option Word)) (t : Thermal) : Nat → List Nat → List Nat
  | 0, gone => gone
  | n + 1, gone =>
    let due := (List.range 16).filter fun s =>
      !gone.contains s && gapOff (gapOf gone temps s) && decide (2 ≤ Tab.get 0 t.runs s)
    let worst := due.foldl (fun (b : Option Nat) s =>
      match b with
      | none => some s
      | some x => if gapWorse (gapOf gone temps s) (gapOf gone temps x) then some s else some x) none
    match worst with
    | none => gone
    | some s => condemnRound temps t n (gone ++ [s])

/-- One sensor's run; the hottest sensor of the round before a run begins is kept (R406). -/
def noteSensor (temps : List (Option Word)) (old gone : List Nat) (hottest s : Nat) (t : Thermal) : Thermal :=
  if old.contains s then t
  else
    let n := Tab.get 0 t.runs s
    let m := if gone.contains s then n + 1 else nextRun (gapOf gone temps s) n
    { t with
      runs := Tab.set 0 t.runs s m
      hotBefore := if n = 0 ∧ m = 1 then Tab.put t.hotBefore s hottest else t.hotBefore }

def maxOf : List Word → Option Word
  | [] => none
  | x :: l => some (l.foldl F32.max x)

/-- Effective value and quality of one sensor (R403). -/
def effective (temps : List (Option Word)) (gone : List Nat) (s : Nat) (t : Thermal) : Word × Nat :=
  if gone.contains s then
    match maxOf (nearReads gone temps s) with
    | some m => (F32.add m (F32.ofNat 5), qSubst)
    | none => ((Tab.find t.subst s).getD (Tab.get 0#32 t.last s), qSubst)
  else match sensorRead temps s with
    | some v => (v, qGood)
    | none => (Tab.get 0#32 t.last s, qStale)

def keepReads (temps : List (Option Word)) (t : Thermal) : Thermal :=
  (List.range 17).foldl (fun t k =>
    match sensorRead temps k with
    | some v => { t with raw := Tab.set 0#32 t.raw k v, last := Tab.set 0#32 t.last k v }
    | none => t) t

/-- T and the hottest sensor (R405): the first that gives the highest value. -/
def hottestOf : List (Nat × Word) → Option (Nat × Word)
  | [] => none
  | x :: l => some (l.foldl (fun b y => if F32.gt y.2 b.2 then y else b) x)

/-- The temperature half of a round: the thermal state and the qualities of the 16 sensor points. -/
def readTemps (temps : List (Option Word)) (t : Thermal) : Thermal × List Nat :=
  let t := keepReads temps t
  let old := condemned t
  let gone := condemnRound temps t 16 old
  let t := (List.range 16).foldl (fun u s => noteSensor temps old gone t.hottest s u) t
  let es := (List.range 16).map fun s => effective temps gone s t
  let t := { t with
    eff := (List.range 16).foldl (fun x s => Tab.set 0#32 x s (es.getD s (0#32, 0)).1) t.eff
    subst := gone.foldl (fun x s => Tab.put x s (es.getD s (0#32, 0)).1) t.subst
    tdRun := if t.tdSuspect then t.tdRun else nextRun (gapOf gone temps 16) t.tdRun }
  let td := if t.tdSuspect || decide (3 ≤ t.tdRun) then []
    else (((sensorRead temps 16).or (Tab.find t.last 16)).map fun v => (16, v)).toList
  let t := match hottestOf (((List.range 16).map fun s => (s, Tab.get 0#32 t.eff s)) ++ td) with
    | some x => { t with hottest := x.1, t := x.2 }
    | none => t
  let warn := if F32.gt t.t (F32.ofNat 105) then true else if F32.lt t.t (F32.ofNat 100) then false else t.warn
  ({ t with warn := warn, warnEpisodes := if warn && !t.warn then up16 t.warnEpisodes else t.warnEpisodes },
    es.map Prod.snd)

/-! ## The throttle level (R406) -/

/-- Each change is logged and written to its point; at 6 and 7 solo loops are held (R108). -/
def setLevel (n : Nat) (d : Dev) : Dev :=
  let old := d.th.level
  if n = old then d
  else
    let d := setTh
      { d.th with
        level := n, levelMax := max d.th.levelMax n,
        episodes := if old = 0 then up16 d.th.episodes else d.th.episodes } d
    let d := logE sevInfo 0x005 (wd old) (wd n) d
    let d := enqueueField 0x444 (F32.ofNat n) qGood (now d) srcLk d
    if old < 6 then holdLoops d else d

def failedCount (t : Thermal) : Nat := ((List.range 16).filter fun s => Nat.testBit t.failed s).length

/-- The floor while two or more sensors have failed. -/
def throttleFloor (t : Thermal) : Nat := if 2 ≤ failedCount t then 4 else 0

def riseLevel (d : Dev) : Dev :=
  let l := d.th.level
  if F32.gt d.th.t (F32.ofNat 125) ∧ l < 7 then setLevel (l + 1) d
  else if F32.gt d.th.t (F32.ofNat 115) ∧ l < 5 then setLevel (l + 1) d
  else d

/-! ## Rails (R395, R401, R457) -/

/-- Operating windows in mV, and those of the low-voltage rails in tenths of one, in the order of R38. -/
def railWindow (k : Nat) : Nat × Nat :=
  [(7760, 8240), (17100, 18900), (31350, 34650), (10450, 11550), (5700, 6300), (7760, 8240), (17100, 18900),
   (47500, 52500), (100000, 150000), (31350, 34650), (18000, 36000), (80000, 360000)].getD k (0, 0)

def tenthMv (n : Nat) : Word := F32.ofRat false n 10000

def railLow (k : Nat) (v : Word) : Bool := F32.lt v (tenthMv (railWindow k).1)
def railOutside (k : Nat) (v : Word) : Bool := railLow k v || F32.gt v (tenthMv (railWindow k).2)

def noteRail (rails : List Word) (k : Nat) (l : LockKeeper) : LockKeeper :=
  match rails[k]? with
  | none => l
  | some v =>
    let out := railOutside k v
    { l with
      rails := Tab.set 0#32 l.rails k v
      railRun := Tab.set 0 l.railRun k (if out then Tab.get 0 l.railRun k + 1 else 0)
      railOut := if out then l.railOut else Tab.set false l.railOut k false
      brownout := l.brownout || (l.pfw && (k == 0 || k == 7) && railLow k v) }

/-! ## The round (R395) -/

/-- The claim points of units 1–4, as integers. -/
def claimPoint (d : Dev) (u : Nat) : Word :=
  F32.ofNat <|
    if unitOf d .a = u then (liveClaim d .a).toNat
    else if unitOf d .b = u then (liveClaim d .b).toNat
    else if !d.pair.enabled then 0
    else if u % 2 = 1 then d.pair.twinLow.toNat else d.pair.twinHigh.toNat

/-- The health points of a round (R39): the 16 sensors with their qualities, TD_F GOOD or, without a reading, STALE (R46).
-/
def healthPoints (qs : List Nat) (tdRead : Bool) (d : Dev) : Dev :=
  let put := fun (o : Nat) (v : Word) (q : Nat) (d : Dev) => enqueueField o v q (now d) srcLk d
  let d := forRange 16 (fun n d => put (0x400 + n) (Tab.get 0#32 d.th.eff n) (qs.getD n 0) d) d
  let d := put 0x410 (Tab.get 0#32 d.th.raw 16) (if tdRead then qGood else qStale) d
  let d := forRange 12 (fun k d => put (0x420 + k) (Tab.get 0#32 d.lk.rails k) qGood d) d
  let d := forRange 4 (fun u d => put (0x440 + u) (claimPoint d (u + 1)) qGood d) d
  let d := put 0x444 (F32.ofNat d.th.level) qGood d
  put 0x445 (F32.ofNat (b2n d.pe.p0 + b2n d.pe.p1)) qGood d

/-- A second of run time ends: the Cairn log's rate count begins again (R399). -/
def secondEnd (d : Dev) : Dev :=
  if d.lk.rounds % 100 ≠ 0 then d
  else
    let n := d.lk.suppressed
    let d := setLk { d.lk with inSecond := 0, suppressed := 0 } d
    if n = 0 then d else logE sevNotice 0x00B (wd n) 0#32 d

/-- The RTC's count has stopped, or moves again (R438). -/
def watchRtc (stopped : Bool) (d : Dev) : Dev :=
  if stopped then
    (if d.clk.stopSeen then d
     else logE sevWarning 0x008 10#32 (Tab.get 0#32 d.lk.rails 10) { d with clk := { d.clk with stopSeen := true } })
  else { d with clk := { d.clk with stopSeen := false }, power := { d.power with osc32 := true } }

def housekeepingRound (temps : List (Option Word)) (rails : List Word) (rtcStopped : Bool) (d : Dev) : Dev :=
  if !coreRuns d then d
  else
    let r := readTemps temps d.th
    let d := riseLevel (setTh r.1 d)
    let d := setLk ((List.range 12).foldl (fun l k => noteRail rails k l) d.lk) d
    let d := healthPoints r.2 (sensorRead temps 16).isSome d
    let d := setLk { d.lk with rounds := d.lk.rounds + 1 } d
    settle (watchRtc rtcStopped (secondEnd d))

/-! ## The events of a round -/

/-- The hottest-sensor rule and the floor (R406), and HEALTH at the second failure (R283). -/
def sensorFailed (s : Nat) (d : Dev) : Dev :=
  if Nat.testBit d.th.failed s then d
  else
    let sub := (Tab.find d.th.subst s).getD (Tab.get 0#32 d.th.last s)
    let d := setTh
      { d.th with
        failed := d.th.failed ||| 2 ^ s
        runs := Tab.set 0 d.th.runs s (max 3 (Tab.get 0 d.th.runs s))
        subst := Tab.put d.th.subst s sub
        hold := d.th.hold || (decide (0 < d.th.level) && Tab.find d.th.hotBefore s == some s) } d
    let d := logE sevWarning 0x006 (wd s) sub d
    let d :=
      if failedCount d.th < 2 ∨ d.belay.sensorFall then d
      else lowerHealth [.a, .b] 40 0 { d with belay := { d.belay with sensorFall := true } }
    settle (if d.th.level < throttleFloor d.th then setLevel (throttleFloor d.th) d else d)

/-- The readings that count in the mean that TD_F is compared with. -/
def tsfMean (t : Thermal) : Word :=
  match ([12, 13, 14, 15].filter fun k => !(condemned t).contains k).map fun k => Tab.get 0#32 t.raw k with
  | [] => 0#32
  | l => F32.mean l

def tdSuspect (d : Dev) : Dev :=
  if d.th.tdSuspect then d
  else
    logE sevWarning 0x007 (Tab.get 0#32 d.th.raw 16) (tsfMean d.th) (setTh { d.th with tdSuspect := true } d)

/-- Once per excursion. -/
def railOut (k : Nat) (d : Dev) : Dev :=
  if Tab.get false d.lk.railOut k then d
  else
    logE sevWarning 0x008 (wd k) (Tab.get 0#32 d.lk.rails k)
      (setLk { d.lk with railOut := Tab.set false d.lk.railOut k true } d)

def throttleFall (d : Dev) : Dev :=
  if F32.lt d.th.t (F32.ofNat 110) && !d.th.hold && decide (throttleFloor d.th < d.th.level) then
    settle (setLevel (d.th.level - 1) d)
  else d

def throttleHoldEnd (d : Dev) : Dev := setTh { d.th with hold := false } d

/-- HOST_HB has not changed for LK_HOST.TIMEOUT (R397). -/
def hostAbsent (d : Dev) : Dev := if coreRuns d && d.hif.enabled then goAbsent d else d

def logFlush (d : Dev) : Dev := if coreRuns d then flushLog d else d

/-! ## Register and buffer views -/

def lkStatus (d : Dev) : Word :=
  wd (at' 8 d.lk.cause + at' 4 (b2n d.lk.hostAbsent) + at' 3 (b2n d.lk.brownout) + at' 2 (b2n d.lk.pfw) +
    at' 1 (b2n d.lk.mainsPfw) + b2n d.lk.pfi)

def thermStatus (t : Thermal) : Word :=
  wd (at' 16 t.hottest + at' 10 t.levelMax + at' 9 (b2n t.tdSuspect) + at' 8 (b2n t.hold) +
    at' 7 (b2n (throttleFloor t == 4)) + at' 6 (b2n (F32.gt t.t (F32.ofNat 125))) +
    at' 5 (b2n (F32.gt t.t (F32.ofNat 115))) + at' 4 (b2n t.warn) + t.level)

/-- Retired units, in retirement order, a failed pipeline among them (R411, R360). -/
def retiredUnits (d : Dev) : List Nat := d.integ.retired

def healthBuffer (d : Dev) : List Byte :=
  let t := d.th
  wordsBytes (
    [wd (at' 24 t.hottest + at' 16 (failedCount t) + at' 8 t.levelMax + t.level), t.t, Tab.get 0#32 t.raw 16,
     wd (at' 16 (fld (lkStatus d) 15 0) + t.failed)] ++
    (List.range 16).map (fun s => Tab.get 0#32 t.eff s) ++
    (List.range 12).map (fun k => Tab.get 0#32 d.lk.rails k) ++
    (List.range 16).map fun j => wd ((retiredUnits d).getD j 0))

def healthRead (c : HostCmd) (d : Dev) : Option Done × Dev :=
  if shortBuf c 192 then (some (badField 0x28), d)
  else (some (okWith (wd d.th.level) (wd (retiredUnits d).length)), outBuf c (healthBuffer d) d)

/-- The Cairn log as NVM holds it: 4,096 entries, the pages of 8 beyond them waiting to be overwritten (R399). -/
def cairnLog (d : Dev) : List LogEntry := capList 4096 d.nvm.cairn

/-- Entries in SEQ order from `first`, or from the oldest held; SEQ wraps. -/
def entriesFrom (l : List LogEntry) (first n : Nat) : List LogEntry :=
  (l.filter fun e => decide ((e.seq + 4294967296 - first) % 4294967296 < 2147483648)).take n

def logRead (c : HostCmd) (d : Dev) : Option Done × Dev :=
  let n := c.count.toNat
  if shortBuf c (32 * n) then (some (badField 0x28), d)
  else
    let log := if bit c.p0 0 then d.lk.ramLog else cairnLog d
    let es := entriesFrom log c.p1.toNat n
    (some (okWith (wd es.length) (wd ((log.getLast?.map (·.seq)).getD 0))), outBuf c (es.flatMap logBytes) d)

def execHousekeepingRound (temps : List (Option Word)) (rails : List Word) (rtcStopped : Bool) (s : State) :=
  run (housekeepingRound temps rails rtcStopped) s
def execThrottleFall (s : State) := run throttleFall s
def execThrottleHoldEnd (s : State) := run throttleHoldEnd s
def execRailOut (rail : Fin 12) (s : State) := run (railOut rail.val) s
def execSensorFailed (sensor : Fin 16) (s : State) := run (sensorFailed sensor.val) s
def execTdSuspect (s : State) := run tdSuspect s
def execHostAbsent (s : State) := run hostAbsent s
def execLogFlush (s : State) := run logFlush s
def execLogRead (c : HostCmd) (s : State) := run (hostExec 0x0804 logRead c) s
def execHealthRead (c : HostCmd) (s : State) := run (hostExec 0x0805 healthRead c) s

end Sys2Proof.Machine
end

