-- ==== Sys2Proof/Machine/Regs.lean ====
section
/-! DEFINITION. Regs: the block register map as it reads and as it is written (R6, R7), and the commands REG_READ and
REG_WRITE (R360, R394). -/
namespace Sys2Proof.Machine

/-! ## Register views -/

def tbStatus (d : Dev) : Word :=
  wd (at' 5 (b2n d.tb.aligned) + at' 4 (b2n d.tb.present) + tbStateCode d.tb.st)

/-- A word of an angle event entry (R27); an entry without a listing is free and reads 0. -/
def entryWord (i k : Nat) (d : Dev) : Word :=
  match Tab.find d.tb.entries i with
  | none => 0#32
  | some e => match k with
    | 0 => e.w0
    | 1 => e.w1
    | 2 => e.w2
    | _ => e.w3

def viewTb (off : Nat) (d : Dev) : Option Word :=
  if 0x1000 ≤ off ∧ off < 0x5000 ∧ off % 4 = 0 then some (entryWord ((off - 0x1000) / 16) (off % 16 / 4) d)
  else match off with
  | 0x00 => some d.tb.ctrl
  | 0x04 => some (tbStatus d)
  | 0x08 => some d.tb.flags
  | 0x0C => some (wd d.tb.angle.toNat)
  | 0x10 => some d.tb.snap
  | 0x14 => some d.tb.rate
  | 0x18 => some (wd d.tb.ofs.toNat)
  | 0x1C => some (wd d.tb.err.toNat)
  | 0x20 => some (wd (at' 16 d.tb.glitch + d.tb.missed))
  | 0x24 => some d.tb.scale
  | _ => none

/-- The RTC field at an offset. -/
def rtcFieldAt (off : Nat) : Option RtcField :=
  match off with
  | 0x0C => some .sec
  | 0x10 => some .min
  | 0x14 => some .hour
  | 0x18 => some .day
  | 0x1C => some .wday
  | 0x20 => some .month
  | 0x24 => some .year
  | _ => none

/-- RTC_SUBSEC itself is a live count and has no place here: its read is `readReg`'s. -/
def viewRtc (p : Path) (off : Nat) (d : Dev) : Option Word :=
  match rtcFieldAt off with
  | some x => some (wd (rtcGetField (snapOf d p) x))
  | none =>
    match off with
    | 0x00 => some d.clk.ctrl
    | 0x04 => some d.clk.status
    | 0x28 => some d.clk.alm0Date
    | 0x2C => some d.clk.alm0Time
    | 0x30 => some d.clk.alm1Time
    | 0x34 => some d.clk.wake
    | 0x38 => some d.clk.trim
    | 0x17C => some d.clk.byte31
    | _ => if 0x100 ≤ off ∧ off < 0x17C then some (Tab.get 0#32 d.clk.bytes ((off - 0x100) / 4)) else none

def adcStatus (d : Dev) (c : Nat) : Word :=
  let a := adcOf d c
  let urgent := match a.run with
    | .urgent _ _ => true
    | _ => false
  wd (at' 18 ((slotOfRun a.run).getD 0) + at' 17 (b2n (a.run != .idle)) + at' 16 (b2n urgent) +
    at' 15 (b2n a.pending.isSome) + at' 8 (fld a.status 11 8) + at' 1 (b2n a.calibrated) + b2n d.inp.refReady)

def viewConverter (c off : Nat) (d : Dev) : Option Word :=
  let a := adcOf d c
  if off = 0 then some (adcStatus d c)
  else if off = 4 then some (wd (at' 16 a.aborted + a.trigLost))
  else if off = 8 then some a.timer
  else if 0x10 ≤ off ∧ off < 0x20 then some (if c < 2 then 0#32 else Tab.get 0#32 a.pwmTrig ((off - 0x10) / 4))
  else if 0x40 ≤ off ∧ off < 0x68 then
    let g := (off - 0x40) / 8
    some (if off % 8 = 0 then Tab.get 0#32 a.offset g else Tab.get F32.one a.gain g)
  else if 0x100 ≤ off ∧ off < 0x300 then
    let s := (off - 0x100) / 8
    some (if off % 8 = 0 then slotCfg a s else slotFilt a s)
  else if 0x400 ≤ off ∧ off < 0x500 then some (slotRes a ((off - 0x400) / 4))
  else none

def viewUi (off : Nat) (d : Dev) : Option Word :=
  if off < 0x300 then
    let u := uiOf d (off / 16)
    some (match off % 16 with
      | 0 => u.cfg
      | 4 => u.par0
      | 8 => u.par1
      | _ => wd u.count)
  else none

def viewAdc (off : Nat) (d : Dev) : Option Word :=
  if off = 0xF000 then some d.inp.vrefExt
  else if off < 0x4000 then viewConverter (off / 0x1000) (off % 0x1000) d
  else if 0x8000 ≤ off then viewUi (off - 0x8000) d
  else none

def bankStatus (d : Dev) (b : Nat) : Word :=
  wd (at' 12 (bankOf d b).diag + at' 8 (((pullingIn d b).map (· % 6)).getD 7) + at' 4 (b2n (hsOn d b)) +
    ((bankChans b).filter fun ch => (chanOf d ch).st == 1).length)

def chStatus (d : Dev) (ch : Nat) : Word :=
  let c := chanOf d ch
  wd (at' 20 c.st + at' 16 c.diag + at' 3 (b2n c.queued.isSome) + at' 2 (b2n (heldBit d ch)) +
    at' 1 (b2n c.suspect) + b2n c.limited)

/-- The nine configuration words of a channel in register order. -/
def chanWords (c : Chan) : List Word := [c.cfg, c.ipk, c.imin, c.imax, c.time, c.dither, c.loop, c.limit, c.i2t]

def viewCoil (off : Nat) (d : Dev) : Option Word :=
  let b := off / 0x1000
  let r := off % 0x1000
  if 8 ≤ b then none
  else if r = 0 then some (bankOf d b).cfg
  else if r = 4 then some (bankStatus d b)
  else if 0x100 ≤ r ∧ r < 0x280 then
    let ch := 6 * b + (r - 0x100) / 0x40
    let k := r % 0x40
    if k < 0x24 then (chanWords (chanOf d ch))[k / 4]?
    else if k = 0x24 then some (chStatus d ch)
    else if k = 0x28 then some (chanOf d ch).motion
    else some 0#32
  else none

def busStatus (d : Dev) (k : Nat) : Word :=
  let b := busOf d k
  wd (at' 16 (min 65535 b.fails) + at' 6 (min 1023 b.late) + at' 4 (b2n b.stuck) + b.sensor)

def viewOut (off : Nat) (d : Dev) : Option Word :=
  let n := off % 0x1000 / 16
  let k := off % 16
  if off < 0x1000 then
    (if 16 ≤ n then none else if k = 0 then some (aoOf d n).cfg else if k = 4 then some (aoStatus d n) else none)
  else if off < 0x2000 then
    (if 16 ≤ n then none else if k = 0 then some (tgOf d n).cfg else if k = 4 then some (tgOf d n).ref
     else if k = 8 then some (tgStatus d n) else none)
  else if off < 0x3000 then
    (if 8 ≤ n then none else if k = 0 then some (fanOf d n).cfg else if k = 4 then some (fanStatus d n) else none)
  else
    let b := (off - 0x3000) / 0x800
    let r := (off - 0x3000) % 0x800
    if 4 ≤ b then none
    else if r = 0 then some (busOf d b).cfg
    else if r = 4 then some (busStatus d b)
    else if 0x40 ≤ r ∧ r < 0x440 then some (sbWord (busOf d b) ((r - 0x40) / 0x40) (r % 0x40 / 4))
    else none

def nvmStatus (n : Nvm) : Word :=
  wd (at' 16 (freePct n) + at' 7 (b2n (n.records.any fun p => inConflict p.2)) + at' 6 (b2n (rawWorks n)) +
    at' 5 (b2n n.hold) + at' 4 (b2n n.compacting) + at' 3 (b2n n.erasing.isSome) + at' 2 (b2n n.running.isSome) +
    at' 1 n.mode + b2n n.scanDone)

def viewNvm (off : Nat) (d : Dev) : Option Word :=
  let n := d.nvm
  match off with
  | 0x00 => some (nvmStatus n)
  | 0x04 => some (wd n.option)
  | 0x08 => some (wd (at' 24 n.discarded + at' 16 n.completed + at' 8 n.torn + at' 4 (min 15 n.reerased) + n.badCopy))
  | 0x0C => some n.shutdown
  | 0x10 => some (setBit n.rawCtrl 31 false)
  | 0x14 => some (wd (at' 3 (b2n n.rawErr) + at' 2 (b2n n.rawTornFlag) + at' 1 (b2n n.rawErased) + b2n (rawWorks n)))
  | _ => if 0x100 ≤ off ∧ off < 0x1FC then some (Tab.get 0#32 n.rawData ((off - 0x100) / 4)) else none

def viewTherm (off : Nat) (d : Dev) : Option Word :=
  match off with
  | 0x00 => some (thermStatus d.th)
  | 0x04 => some (wd d.th.failed)
  | 0x08 => some d.th.t
  | 0x0C => some (wd (at' 16 d.th.episodes + d.th.warnEpisodes))
  | _ => if 0x100 ≤ off ∧ off ≤ 0x140 then some (Tab.get 0#32 d.th.raw ((off - 0x100) / 4)) else none

/-- BELAY_CFG: the pair's own bits and preferences while paired. -/
def belayCfg (d : Dev) : Word :=
  wd (at' 9 (b2n d.pair.upper) + at' 8 (b2n d.pair.enabled) + at' 4 (prefOf d .a % 16) + prefOf d .b % 16)

def viewBelay (off : Nat) (d : Dev) : Option Word :=
  match off with
  | 0x00 => some (belayCfg d)
  | 0x04 => some (belayStatus d)
  | 0x08 => some (wd d.belay.owner.toNat)
  | 0x0C => some (belayClaims d)
  | 0x10 => some (twinClaims d)
  | 0x14 => some (wd (at' 16 d.belay.switchovers + d.belay.hbMissed))
  | 0x18 => some d.belay.flags
  | 0x1C => some (wd (at' 16 (min 65535 d.pair.lag) + d.pair.resyncs))
  | _ => none

def viewPort (off : Nat) (d : Dev) : Option Word :=
  let p := off / 0x100
  if 24 ≤ p then none
  else match off % 0x100 with
    | 0 => some (portStatus d p)
    | 4 => some (portDrops d p)
    | 8 => some (portRefusals d p)
    | _ => none

def secStatus (d : Dev) : Word :=
  let s := d.sec
  wd (at' 16 s.keys.length + at' 12 s.sessions.length + at' 11 (b2n s.dramEnc) + at' 10 (b2n d.tow.tech) +
    at' 9 (b2n s.techSecret.isSome) + at' 8 (b2n s.oemKey.isSome) + at' 7 (b2n s.lockout) + s.debug)

def secImage (d : Dev) : Word :=
  let s := d.sec
  wd (at' 7 (b2n s.staging.isSome) + at' 6 (b2n s.trial) + at' 5 (b2n s.bValid) + at' 4 (b2n s.aValid) +
    at' 1 s.next + s.active)

def viewSec (off : Nat) (d : Dev) : Option Word :=
  match off with
  | 0x00 => some (secStatus d)
  | 0x04 => some (secImage d)
  | 0x08 => some (wd (at' 16 d.sec.envRefused + d.sec.authFails))
  | _ => none

def viewLk (off : Nat) (d : Dev) : Option Word :=
  match off with
  | 0x00 => some (lkStatus d)
  | 0x04 => some (wd d.lk.hostTimeout)
  | 0x08 => some (wd d.lk.seq)
  | 0x0C => some (wd (at' 16 d.lk.pfwEvents + d.lk.absences))
  | _ => none

/-- A block register as it reads on a path, without what a read does. -/
def viewReg (p : Path) (a : Nat) (d : Dev) : Option Word :=
  let off := a % 0x100000
  if a % 4 ≠ 0 then none
  else match a / 0x100000 with
    | 0x10 => viewTb off d
    | 0x11 => viewRtc p off d
    | 0x12 => viewAdc off d
    | 0x13 => viewCoil off d
    | 0x14 => viewOut off d
    | 0x15 => viewNvm off d
    | 0x16 => viewTherm off d
    | 0x17 => viewBelay off d
    | 0x18 => viewPort off d
    | 0x19 => viewSec off d
    | 0x1A => viewLk off d
    | _ => none

/-- The result register at an address, converter and slot. -/
def resultAt (a : Nat) : Option (Nat × Nat) :=
  let off := a % 0x100000
  let r := off % 0x1000
  if a / 0x100000 = 0x12 ∧ off < 0x4000 ∧ 0x400 ≤ r ∧ r < 0x500 then some (off / 0x1000, (r - 0x400) / 4) else none

/-- A read of a block register, with what it latches or takes (R18, R166, R211); none outside the map. The live count of
RTC_SUBSEC is the live count, which runs on between two reads (R166). -/
def readReg (p : Path) (a : Nat) (d : Dev) : Option (Word × Dev) :=
  if a = 0x0100000C then some (readAngle d)
  else if a = 0x01100008 then let d := latchFields p d; some (wd d.clk.subsec, d)
  else match resultAt a with
    | some (c, s) => if a % 4 = 0 then some (takeResult c s d) else none
    | none => (viewReg p a d).map fun w => (w, d)

/-! ## Writes. `v` is the register's new contents, RW bits outside the mask kept; `m` the written 1s of a W1C field. -/

/-- What a write of a block register does. -/
inductive RegRes | done (d : Dev) | refused (x : Done)

def regIf (ok : Bool) (d : Dev) : RegRes := if ok then .done d else .refused (badField 0x10)

/-- A register write of any word of an angle event entry writes the entry with the other words kept, from its landing
(R31; log entry 18); the fields that R27 and R28 refuse are refused, an entry of another owner and a 513th claim too
(R32, R240), and ACTION NONE leaves the entry free with the words written. -/
def writeEntryWord (owner : Word) (off : Nat) (v : Word) (d : Dev) : RegRes :=
  let i := (off - 0x1000) / 16
  let w := fun k => if off % 16 / 4 = k then v else entryWord i k d
  if (entryFault (w 0) (w 2)).isSome then .refused (badField 0x10)
  else if fld (w 0) 19 16 = 0 then
    match releaseCheck [resAngle i] owner d with
    | some x => .refused (claimError x)
    | none => .done (keepFreeWords i (w 0) (w 1) (w 2) (w 3) d)
  else match claimCheck [resAngle i] owner d with
    | some x => .refused (claimError x)
    | none => .done (landEntry i (w 0) (w 1) (w 2) (w 3) (claimAll [resAngle i] owner d))

/-- The owner for which a path writes registers: the host, or class LK for the console (R241). -/
def pathOwner (p : Path) : Word := if p = .reg then ownHost else srcLk

def writeTb' (p : Path) (off : Nat) (v m : Word) (d : Dev) : RegRes :=
  if 0x1000 ≤ off then writeEntryWord (pathOwner p) off v d
  else match off with
  | 0x00 => .done (writeTbCtrl v d)
  | 0x08 => .done (setTb { d.tb with flags := w1c d.tb.flags m 0x3F#32 } d)
  | 0x18 => .done (writePhaseOfs v d)
  | 0x24 => .done (setTb { d.tb with scale := v } d)
  | _ => .done d

def writeRtc' (p : Path) (off : Nat) (v m : Word) (d : Dev) : RegRes :=
  .done <| match rtcFieldAt off with
  | some x => writeField p x v.toNat d
  | none =>
    match off with
    | 0x00 => writeRtcCtrl v d
    | 0x04 => setClk { d.clk with status := w1c d.clk.status m 0x3F#32 } d
    | 0x28 => setClk { d.clk with alm0Date := v &&& 0xFF0F1F#32 } d
    | 0x2C => setClk { d.clk with alm0Time := v &&& 0x1F3F3F#32 } d
    | 0x30 => setClk { d.clk with alm1Time := v &&& 0x1F3F3F#32 } d
    | 0x34 => writeWake v d
    | 0x38 => setClk { d.clk with trim := v &&& 0x3FF#32 } d
    | 0x17C => writeByte31 v d
    | _ => if 0x100 ≤ off ∧ off < 0x17C then
        setClk { d.clk with bytes := Tab.set 0#32 d.clk.bytes ((off - 0x100) / 4) (v &&& 0xFF#32) } d
      else d

def writeConverter (c off : Nat) (v m : Word) (d : Dev) : RegRes :=
  let a := adcOf d c
  if off = 0 then .done (setAdc c { a with status := w1c a.status m 0xF00#32 } d)
  else if off = 8 then regIf (timerOk v) (setAdc c { a with timer := v &&& timerMask } d)
  else if 0x10 ≤ off ∧ off < 0x20 then
    .done (if c < 2 then d
      else setAdc c { a with pwmTrig := Tab.set 0#32 a.pwmTrig ((off - 0x10) / 4) (v &&& pwmTrigMask) } d)
  else if 0x40 ≤ off ∧ off < 0x68 then
    let g := (off - 0x40) / 8
    .done (setAdc c (if off % 8 = 0 then { a with offset := Tab.set 0#32 a.offset g (v &&& 0xFFFFFF#32) }
      else { a with gain := Tab.set F32.one a.gain g v }) d)
  else if 0x100 ≤ off ∧ off < 0x300 then
    let s := (off - 0x100) / 8
    let w := slotWords a s
    let cfg := if off % 8 = 0 then v &&& slotCfgMask else w.1
    let filt := if off % 8 = 0 then w.2 else v &&& slotFiltMask
    if !(slotCfgOk c cfg && slotFiltOk cfg filt) then .refused (badField 0x10)
    else if bit cfg 29 && captureClash d c s (slotSource cfg) then .refused (fail stConflict)
    else .done (writeSlot2 c s cfg filt d)
  else .done d

def writeUiReg (off : Nat) (v : Word) (d : Dev) : RegRes :=
  let n := off / 16
  let u := uiOf d n
  match off % 16 with
  | 0 =>
    let w := v &&& uiCfgMask
    regIf (uiCfgOk w && uiPar0Ok w u.par0 && uiPar1Ok w u.par1) (writeUi n w u.par0 u.par1 d)
  | 4 => regIf (uiPar0Ok u.cfg v) (writeUi n u.cfg v u.par1 d)
  | 8 => regIf (uiPar1Ok u.cfg v) (writeUi n u.cfg u.par0 v d)
  | _ => .done d

/-- VREF_EXT within 1.0–2.6 V. -/
def vrefOk (v : Word) : Bool := F32.ge v F32.one && F32.le v (F32.rat 26 10)

def writeAdc' (off : Nat) (v m : Word) (d : Dev) : RegRes :=
  if off = 0xF000 then regIf (vrefOk v) { d with inp := { d.inp with vrefExt := v } }
  else if off < 0x4000 then writeConverter (off / 0x1000) (off % 0x1000) v m d
  else writeUiReg (off - 0x8000) v d

/-- A channel register: its own ranges, and all rules of R217 once the channel is in service. -/
def writeChanReg (ch k : Nat) (v : Word) (d : Dev) : RegRes :=
  let masks := [chCfgMask, all1, all1, all1, chTimeMask, chDitherMask, chLoopMask, chLimitMask, all1]
  let old := chanOf d ch
  let w := v &&& masks.getD (k / 4) 0#32
  let ws := (chanWords old).set (k / 4) w
  let new := withWords old fun i => ws.getD i 0#32
  let own := match k with
    | 0x00 => decide (fld w 19 18 ≤ 2)
    | 0x10 => chTimeOk w
    | 0x14 => chDitherOk w
    | 0x1C => chLimitOk w
    | 0x20 => chI2tOk w
    | _ => true
  if 0x24 ≤ k then .done d
  else if !own || (chEnabled new && ((chanFault new).isSome || decide (fld (bankOf d (ch / 6)).cfg 23 16 = 0))) then
    .refused (badField 0x10)
  else match writeChan ch (fun i => ws.getD i 0#32) d with
    | some d => .done d
    | none => .refused (fail stNoCapacity)

def writeCoil' (off : Nat) (v : Word) (d : Dev) : RegRes :=
  let b := off / 0x1000
  let r := off % 0x1000
  if r = 0 then regIf (bankCfgOk v) (setBank b { bankOf d b with cfg := v } d)
  else if 0x100 ≤ r then writeChanReg (6 * b + (r - 0x100) / 0x40) (r % 0x40) v d
  else .done d

/-- One word of a sensor template: its sensor's rules, and those of R251 about its points. -/
def writeTmplReg (k s i : Nat) (v : Word) (d : Dev) : RegRes :=
  let ws := ((List.range 16).map (sbWord (busOf d k) s)).set i (v &&& tmplMasks.getD i 0#32)
  let others := (List.range 4).flatMap fun j =>
    (busOf d j).templates.flatMap fun t => if j = k ∧ t.1 = s then [] else tmplPoints t.2
  if (tmplFault (List.replicate 4 0#8 ++ wordsBytes ws) 0).isSome then .refused (badField 0x10)
  else match (tmplPoints ws).find? fun id => ((recOf d id).map fun r => r.kind != 1 || others.contains id).getD true with
    | some id => .refused (if (recOf d id).isNone then fail stNotFound (wd id) else fail stConflict)
    | none => .done (writeTemplate k s ws d)

/-- A gate output needs an angle event entry. -/
def tgWrite (n : Nat) (cfg ref : Word) (d : Dev) : RegRes :=
  if tgCfgOk n cfg && tgRefOk ref then
    match writeTg n cfg ref d with
    | some d => .done d
    | none => .refused (fail stNoCapacity)
  else .refused (badField 0x10)

def writeOut' (off : Nat) (v m : Word) (d : Dev) : RegRes :=
  let n := off % 0x1000 / 16
  let k := off % 16
  if off < 0x1000 then
    (if k = 0 then .done (writeAo n (v &&& aoMask) d)
     else
       let x := aoOf d n
       .done (setAo n { x with limited := x.limited && !bit m 1, short := x.short && !bit m 0 } d))
  else if off < 0x2000 then
    (if k = 0 then tgWrite n (v &&& tgMask) (tgOf d n).ref d
     else if k = 4 then tgWrite n (tgOf d n).cfg v d else .done d)
  else if off < 0x3000 then
    (if k = 0 then regIf (fanCfgOk v) (writeFan n (v &&& fanMask) d) else .done d)
  else
    let b := (off - 0x3000) / 0x800
    let r := (off - 0x3000) % 0x800
    if r = 0 then regIf (sbCfgOk v) (writeBus b (v &&& sbMask) d)
    else if r = 4 then .done (setBus b { busOf d b with stuck := (busOf d b).stuck && !bit m 4 } d)
    else writeTmplReg b ((r - 0x40) / 0x40) (r % 0x40 / 4) v d

def writeNvm' (off : Nat) (v m : Word) (d : Dev) : RegRes :=
  .done <| match off with
  | 0x04 => setNvm { d.nvm with option := fld v 0 0 } d
  | 0x10 => rawCtrlWrite (setBit v 31 (bit m 31)) d
  | 0x14 => setNvm { d.nvm with rawErr := d.nvm.rawErr && !bit m 3 } d
  | _ => if 0x100 ≤ off ∧ off < 0x1FC then
      setNvm { d.nvm with rawData := Tab.set 0#32 d.nvm.rawData ((off - 0x100) / 4) v } d
    else d

def writeBelay' (off : Nat) (v m : Word) (d : Dev) : RegRes :=
  .done <| match off with
  | 0x00 => if d.pair.enabled then d else { d with belay := { d.belay with cfg := v &&& 0xFF#32 } }
  | 0x18 => { d with belay := { d.belay with flags := w1c d.belay.flags m 0x3F#32 } }
  | _ => d

/-- PORT_DROPS: a written 1 in a field clears the field. -/
def writePort' (off : Nat) (m : Word) (d : Dev) : RegRes :=
  let p := off / 0x100
  .done (if off % 0x100 = 4 then
    setPort p { portOf d p with
      dropRaw := if fld m 31 16 = 0 then (portOf d p).dropRaw else 0
      dropCore := if fld m 15 0 = 0 then (portOf d p).dropCore else 0 } d
  else d)

/-- LK_HOST: a value outside 1,000–60,000 is ignored. -/
def writeLk' (off : Nat) (v : Word) (d : Dev) : RegRes :=
  .done (if off = 4 ∧ between 1000 60000 (fld v 15 0) then setLk { d.lk with hostTimeout := fld v 15 0 } d else d)

/-- A write of the bits of a block register that the mask names; none outside the map. Writes of read-only registers and
bits are ignored (R6). -/
def writeReg (p : Path) (a : Nat) (value mask : Word) (d : Dev) : Option RegRes :=
  match viewReg p a d with
  | none => if a = 0x01100008 then some (.done d) else none
  | some old =>
    let off := a % 0x100000
    let cur := match rtcFieldAt off with
      | some x => if a / 0x100000 = 0x11 then wd (rtcGetField d.clk.now x) else old
      | none => old
    let v := rwMask cur value mask
    let m := value &&& mask
    if mask = 0#32 then some (.done d)
    else some (match a / 0x100000 with
      | 0x10 => writeTb' p off v m d
      | 0x11 => writeRtc' p off v m d
      | 0x12 => writeAdc' off v m d
      | 0x13 => writeCoil' off v d
      | 0x14 => writeOut' off v m d
      | 0x15 => writeNvm' off v m d
      | 0x17 => writeBelay' off v m d
      | 0x18 => writePort' off m d
      | 0x1A => writeLk' off v d
      | _ => .done d)

/-! ## Owners of registers (R360) -/

/-- The resources a register belongs to. -/
def regResources (a : Nat) : List Nat :=
  let off := a % 0x100000
  match a / 0x100000 with
  | 0x10 => if 0x1000 ≤ off then [resAngle ((off - 0x1000) / 16)] else []
  | 0x12 =>
    let c := off / 0x1000
    let r := off % 0x1000
    if 0x8000 ≤ off then (if off < 0x8300 then [resPin 0 ((off - 0x8000) / 16)] else [])
    else if r = 8 then [resTrigger c 0]
    else if 0x10 ≤ r ∧ r < 0x20 then [resTrigger c ((r - 0x10) / 4 + 1)]
    else if 0x40 ≤ r ∧ r < 0x68 then [resCal c]
    else if 0x100 ≤ r ∧ r < 0x300 then [resSlot c ((r - 0x100) / 8)]
    else []
  | 0x13 =>
    let b := off / 0x1000
    let r := off % 0x1000
    if r = 0 then (bankChans b).map (resPin 2)
    else if 0x100 ≤ r then [resPin 2 (6 * b + (r - 0x100) / 0x40)] else []
  | 0x14 =>
    let n := off % 0x1000 / 16
    if off < 0x1000 then [resPin 1 n] else if off < 0x2000 then [resPin 3 n] else if off < 0x3000 then [resPin 4 n]
    else [resPin 5 ((off - 0x3000) / 0x800)]
  | _ => []

/-! ## The commands -/

def inSecBlock (a : Nat) : Bool := a / 0x100000 == 0x19

/-- REG_WRITE's outcome for an owner: the value read back, or why nothing was written. -/
def guardedWrite (p : Path) (owner : Word) (a : Nat) (value mask : Word) (d : Dev) : Done × Dev :=
  if inSecBlock a then (fail stConflict, d)
  else if (viewReg p a d).isNone && a != 0x01100008 then (fail stNotFound (wd a), d)
  else match releaseCheck (regResources a) owner d with
    | some (.busy o r) => (fail stBusy o (wd r), d)
    | _ =>
      match writeReg p a value mask d with
      | some (.done e) =>
        match readReg p a e with
        | some (w, f) => (okWith w, f)
        | none => (ok, e)
      | some (.refused x) => (x, d)
      | none => (fail stNotFound (wd a), d)

def regRead (c : HostCmd) (d : Dev) : Option Done × Dev :=
  if c.target.toNat % 4 ≠ 0 then (some (badField 0x08), d)
  else match readReg .reg c.target.toNat d with
    | some (w, d) => (some (okWith w), d)
    | none => (some (fail stNotFound c.target), d)

def regWrite (c : HostCmd) (d : Dev) : Option Done × Dev :=
  if c.target.toNat % 4 ≠ 0 then (some (badField 0x08), d)
  else
    let r := guardedWrite .reg ownHost c.target.toNat c.p0 c.p1 d
    (some r.1, r.2)

def execRegRead (c : HostCmd) (s : State) := run (hostExec 0x0801 regRead c) s
def execRegWrite (c : HostCmd) (s : State) := run (hostExec 0x0802 regWrite c) s

end Sys2Proof.Machine
end

