-- ==== Sys2Proof/Machine/Power.lean ====
section
/-! DEFINITION. Power: resets and what each keeps (R430–R438), boot (R388, R389), thermal shutdown and restart
(R408–R410), the end of a power-fail warning (R400, R401), and writes of set-up and block registers that have no step of
their own (R6, R322, R328). -/
namespace Sys2Proof.Machine

def setPower (p : Power) (d : Dev) : Dev := { d with power := p }

/-! ## The NVM across a loss of its supply, a reset, a shutdown (R409, R418–R423) -/

/-- A raw page whose program the loss of power cut short: its bytes hold 0xFF, the new value or one with fewer zero bits;
the mark is absent (R422). Which zero bits stand is free (log entry 7). -/
def tornBytes (new : List Byte) (fs : List Word) : List Byte :=
  ((new ++ List.replicate 252 0xFF#8).take 252).zipWith (· ||| ·) (wordsBytes fs)

def tearRaw (d : Dev) : Dev :=
  match d.nvm.running with
  | some (.rawProgram p b) =>
    if d.nvm.step2 then d
    else
      let r := freeWords 63 d
      setNvm { r.2.nvm with rawPages := Tab.put r.2.nvm.rawPages p (tornBytes b r.1 ++ List.replicate 4 0xFF#8) } r.2
  | _ => d

/-- What the controller holds in its registers and queue at a field-die power-up; the array itself stays. -/
def nvmPowerUp (d : Dev) : Dev :=
  let d := tearRaw d
  let n := d.nvm
  setNvm
    { records := n.records, counters := n.counters, cairn := n.cairn, option := n.option, erasing := n.erasing
      sectorUsed := n.sectorUsed, writeSector := n.writeSector, retireTable := n.retireTable
      remapTable := n.remapTable, rawPages := n.rawPages } d

/-- The commands behind NVM work are gone with the core die. -/
def orphanWork : NvmWork → NvmWork
  | .record id b _ => .record id b none
  | .counter k _ => .counter k none
  | w => w

/-- A reset of the core die: the controller goes on with what it has. -/
def nvmCoreReset (d : Dev) : Dev :=
  let n := d.nvm
  setNvm (applyHeld { n with
    queue := n.queue.map orphanWork, running := n.running.map orphanWork, hold := false, erasePaused := false
    compacting := n.compacting && d.lop.autoCompact, optionNext := none, scanFresh := false }) d

/-- KIND and ID of a discarded write. -/
def workName : NvmWork → Nat × Nat
  | .record id _ _ => (0, id)
  | .counter k _ => (1, k)
  | .rawRead p => (3, p)
  | .rawProgram p _ => (3, p)
  | .rawErase s => (3, 16 * s)

/-- Queued writes and held increments, in that order; a read writes nothing. -/
def discardedWork (n : Nvm) : List (Nat × Nat) :=
  (n.queue.filter fun w => !isRead w).map workName ++ n.heldIncs.map fun p => (1, p.1)

/-- A thermal shutdown: the program in flight completes where its payload is complete, an erase goes on, the queue is
discarded. -/
def nvmShutdown (programDone : Bool) (d : Dev) : Dev :=
  let n := d.nvm
  let w := n.running.map orphanWork
  let d := setNvm { n with running := w } d
  let d := match w with
    | some (.record id b _) => if programDone then recordEnd id b none (setNvm { d.nvm with step2 := true } d)
        else setNvm { d.nvm with running := none, step2 := false } d
    | some (.counter k _) => counterEnd k none d
    | some (.rawProgram p b) => if programDone then setNvm (rawEnd p b (if d.nvm.step2 then d.nvm else rawEnd p b d.nvm)) d
        else setNvm (rawEnd p b { d.nvm with step2 := false }) d
    | _ => d
  let lost := discardedWork n
  let first := lost.headD (0, 0)
  setNvm { d.nvm with
    running := none, step2 := false, queue := [], heldIncs := [], hold := false, erasePaused := false, compacting := false
    shutdown := wd (at' 16 (min 65535 lost.length) + at' 14 first.1 + first.2) } d

/-! ## The field die powers up (R216, R418, R434) -/

def fieldPowerUp (d : Dev) : Dev :=
  let d := nvmPowerUp d
  { d with
    tb := { refRuns := d.tb.refRuns }
    inp := {}
    coil := { vdrvGood := d.coil.vdrvGood }
    out := { owners := d.out.owners.filter fun p => decide (p.1 / 16777216 ≠ 2) }
    power := { d.power with calDue := true } }

/-- Without VDD_FIELD every pre-driver gate is low and AO drives 0 V (R431). -/
def allOff (d : Dev) : Dev :=
  let d := forRange 48 killChan d
  let d := forRange 16 killAo d
  let d := forRange 16 failSafeTg d
  forRange 8 killFan d

/-! ## A reset of the core die (R12, R434) -/

/-- An urgent conversion for a command that is gone. -/
def orphanUrgent : Urgent → Urgent
  | .readNow _ _ => .selfTest
  | u => u

/-- The field die's inputs and outputs forget the commands and entries of the core die and keep their configuration. -/
def orphanField (d : Dev) : Dev :=
  let adc := fun (a : Adc) => { a with
    urgents := a.urgents.map fun u => (orphanUrgent u.1, u.2)
    run := match a.run with
      | .urgent u s => .urgent (orphanUrgent u) s
      | r => r }
  let kept := { d with
    inp := { d.inp with adcs := Tab.mapVals d.inp.adcs fun _ a => adc a }
    coil := { d.coil with
      diagWait := []
      chans := Tab.mapVals d.coil.chans fun _ c => { c with waiting := [], entry := none, armed := false } }
    out := { d.out with
      owners := [], tgs := Tab.mapVals d.out.tgs fun _ x => { x with entry := none, firing := false } }
    tb := { d.tb with entries := [], lateCount := 0 } }
  let jobs := kept.inp.cals.filter fun j => j.slot.isNone
  claimAll (jobs.flatMap fun j => j.todo.map resCal) srcLk { kept with inp := { kept.inp with cals := jobs } }

/-- The security engine after a reset: the vault's contents stand; sessions, counts and the unlock end (R381, R392). -/
def secReset (s : Security) : Security :=
  { s with
    sessions := [], debug := if s.debug = 2 then 1 else s.debug, envRefused := 0, envLogged := [], authFails := 0
    failTimes := [], lockout := false, lockoutAt := 0, vaultLost := false, dramEnc := false, hostResetOk := false
    staging := none }

/-- The Lock-keeper after a reset that keeps its RAM: the logs and the run time stand. -/
def lkReset (l : LockKeeper) : LockKeeper :=
  { pfi := l.pfi, ramLog := l.ramLog, seq := l.seq, flush := l.flush, rounds := l.rounds }

/-- After a POR: SEQ goes on from the newest entry of the Cairn log (R399). -/
def lkPor (cairn : List LogEntry) (l : LockKeeper) : LockKeeper :=
  { pfi := l.pfi, seq := ((cairn.getLast?).map (·.seq)).getD 0 }

/-- The core die, the host interface and the console as every reset leaves them. The calls on the field die come after. -/
def clearCore (por : Bool) (d : Dev) : Dev :=
  let d := if por then { d with lop := { d.lop with slots := [] } } else
    { endAllOps d with lop := { (endAllOps d).lop with autoCompact := d.lop.autoCompact } }
  let d := forEach (d.inp.cals.filter fun j => j.slot.isSome) (fun j d => (j.slot.map fun k => dropCal k d).getD d) d
  let d := nvmCoreReset (orphanField d)
  { d with
    link := {}
    pe := { p0 := d.pe.p0, p1 := d.pe.p1 }
    loops := {}, zones := {}, sched := {}
    clk := { d.clk with
      discOpen := false, waiting := [], stopSeen := false, heldWall := wallTime d
      heldAt := if por then 0 else runSec d }
    ports := { ports := Tab.mapVals d.ports.ports fun _ x => { linkUp := x.linkUp, speed := x.speed } }
    kw := {}, belay := {}, pair := { ropeSd := d.pair.ropeSd }
    integ := { d.integ with tests := [], remaps := [], ecc := [], transients := if por then [] else d.integ.transients }
    hif := { mem := d.hif.mem }
    lop := { archive := d.lop.archive, autoCompact := d.lop.autoCompact }
    sec := secReset d.sec
    lk := if por then lkPor d.nvm.cairn d.lk else lkReset d.lk
    th := {}
    tow := if por then {} else
      { wrongRun := d.tow.wrongRun, blocked := d.tow.blocked, blockFor := d.tow.blockFor, blockAt := d.tow.blockAt }
    power := { d.power with booted := false } }

/-- A reset with its cause: the first cause that arose stands until boot (R436). `field` where the field die is reset as
at a power-up. Outputs drive the fail-safe meanwhile, or are off without VDD_FIELD. -/
def deviceReset (cause : Nat) (field : Bool) (d : Dev) : Dev :=
  let c := d.power.pendingCause.getD cause
  let d := clearCore (cause == 1) d
  let d := if field then fieldPowerUp d else d
  let d := { d with power := { d.power with pendingCause := some c }, lk := { d.lk with cause := c } }
  if d.power.fieldUp then failSafeField 2 d else allOff d

/-! ## Boot (R388, R389) -/

/-- Body of an item of the slot's configuration image. -/
def configItem (d : Dev) (t : Nat) : Option (List Byte) :=
  (imageAt d d.sec.active 5).bind fun o =>
    ((itemsOf (payloadOf (slotBytes d d.sec.active) o)).find? fun x => x.2.1 == t).map fun x => x.2.2

/-- HOST_RESET_OK of the configuration image: FLAGS bit 0 of its header. -/
def hostResetBit (d : Dev) : Bool :=
  ((imageAt d d.sec.active 5).map fun o => byteAt (slotBytes d d.sec.active) (o + 7) % 2 == 1).getD false

/-- The slot that boots: a TRIAL that did not reach confirmation gives way, and a slot that fails its validation is marked
invalid. The answer lists the slots that failed, with the type of the image at fault. -/
def chooseSlot (d : Dev) : Option Nat × List (Nat × Nat) × Dev :=
  let d := if d.sec.trial then
      setSec { (setSlotValid d.sec.active false d).sec with trial := false, next := 1 - d.sec.active } d
    else d
  let s := d.sec.next
  if slotBoots d s then (some s, [], d)
  else
    let bad := (s, failingType d (slotBytes d s))
    let d := setSlotValid s false d
    if slotBoots d (1 - s) then (some (1 - s), [bad], setSec { d.sec with next := 1 - s } d)
    else (none, [bad, (1 - s, failingType d (slotBytes d (1 - s)))], setSlotValid (1 - s) false d)

/-- Registers of the configuration image, in list order; a value the register refuses is left out. -/
def applyRegisters (d : Dev) : Dev :=
  forEach ((configItem d 4).map configEntries |>.getD []) (fun e d =>
    match writeReg .lk e.1.toNat e.2.1 e.2.2 d with
    | some (.done d) => d
    | _ => d) d

/-- RECOVERY takes effect at the end of the scan this reset runs, if it runs one. -/
def applyOption (d : Dev) : Dev :=
  match (configItem d 5).map fun b => fld (wordAt b 0) 0 0 with
  | none => d
  | some v =>
    if !d.nvm.scanDone then setNvm { d.nvm with optionNext := some v } d
    else if d.nvm.scanFresh then setNvm { d.nvm with option := v } d
    else d

def applyConfig (d : Dev) : Dev :=
  let word := fun (t : Nat) => (configItem d t).map fun b => wordAt b 0
  let d := setSec { d.sec with dramEnc := ((word 1).map fun w => bit w 0).getD false, hostResetOk := hostResetBit d } d
  let d := setHif { d.hif with subsys := (word 2).getD 0#32 } d
  let d := match configItem d 3 with
    | some b => if (planRefused b).isNone then { d with pe := { d.pe with plan := some (planOf b) } } else d
    | none => d
  applyOption (applyRegisters d)

/-- The banks claim their slots and their channels' entries again, and a gate output its own (R218, R224, R434). -/
def reclaimField (d : Dev) : Dev :=
  let d := forRange 8 (fun b d =>
    if bit (Tab.get 0#32 (adcOf d (2 + b / 4)).pwmTrig (b % 4)) 31 then claimAll (bankResources b) (ownBank b) d else d) d
  let d := forRange 48 (fun ch d =>
    if chEnabled (chanOf d ch) && chAngle (chanOf d ch) then
      match claimEntry (ownBank (ch / 6)) d with
      | (some i, d) => modChan ch (fun c => { c with entry := some i }) d
      | (none, d) => d
    else d) d
  forRange 16 (fun n d =>
    if bit (tgOf d n).cfg 0 then
      match claimEntry (ownTg n) d with
      | (some i, d) => setTg n { tgOf d n with entry := some i } d
      | (none, d) => d
    else d) d

/-- Units retired before the reset stay out and are tested; remaps are rebuilt from the table (R319). -/
def retestUnits (d : Dev) : Dev :=
  let table := d.nvm.retireTable
  let both := !d.pe.p0 && !d.pe.p1
  let d := { d with integ := { d.integ with
    remaps := d.nvm.remapTable, retired := table.filter fun u => u != unitPipes || both } }
  forEach table (fun u => dispatchTest u { blankTest with retest := true }) d

/-- The Lock-keeper starts: the log entries of this boot, the calibration, the warning that PFI still calls for. -/
def lkStart (slot : Nat) (puf : Bool) (bad : List (Nat × Nat)) (d : Dev) : Dev :=
  let d := logE sevNotice 0x001 (wd d.lk.cause) (wd slot) d
  let d := if puf then d else logE sevFault 0x022 0#32 0#32 (setSec { d.sec with vaultLost := true } d)
  let d := forEach bad (fun x => logE sevWarning 0x021 (wd x.1) (wd x.2)) d
  let d := if d.lk.cause = 4 then
      logE sevFault 0x004 (wd (fld d.nvm.shutdown 31 16)) (wd (fld d.nvm.shutdown 13 0)) (wearUp 8 d)
    else d
  let d := if d.power.calDue && d.power.fieldUp then calAll { d with power := { d.power with calDue := false } } else d
  if d.lk.pfi then beginWarning 1 d else d

def boot (b : BootInfo) (d : Dev) : Dev :=
  if d.power.booted || !coreRuns d then d
  else
    let r := chooseSlot d
    match r.1 with
    | none => r.2.2
    | some s =>
      let d := r.2.2
      let d := setSec { (setSlotValid s true d).sec with active := s, trial := !d.sec.confirmed.contains s } d
      let d := { d with power := { d.power with booted := true, pendingCause := none } }
      let d := lkStart s b.pufOk r.2.1 d
      let d := retestUnits (reclaimField (applyConfig d))
      let d := setHif { d.hif with ready := d.nvm.scanDone } d
      emit (.banner d.lk.cause) (setNvm { d.nvm with scanFresh := false } d)

/-! ## The resets (R432–R437) -/

/-- Rails of the core die in the order of R38: all but VDD_FIELD, VDRV, VBAK and VSUP_SENSE. -/
def coreRail (k : Nat) : Bool := decide (k < 7) || k == 9

def coreRailLoss (k : Nat) (d : Dev) : Dev :=
  if coreRail k then deviceReset 1 false { d with power := { d.power with coreUp := false } } else d

/-- The rails reach power-good together: the core die leaves POR. -/
def por (fieldFell : Bool) (d : Dev) : Dev :=
  let d := { d with power := { d.power with coreUp := true } }
  deviceReset 1 (fieldFell && d.power.fieldUp) d

/-- RESET_N goes low for 10 µs, or rises; it has no effect while a thermal shutdown is in force. -/
def resetN (rises : Bool) (d : Dev) : Dev :=
  if d.power.shutdown then d
  else if rises then { d with power := { d.power with resetLow := false } }
  else if d.power.resetLow then d
  else deviceReset 2 true { d with power := { d.power with resetLow := true } }

/-- The watchdog expires. Without the reference the reset waits for it (R437). -/
def watchdog (d : Dev) : Dev :=
  if !d.power.coreUp || d.power.shutdown || d.power.resetLow then d
  else if d.tb.refRuns then deviceReset 3 false d
  else { d with power := { d.power with wdExpired := true } }

def watchdogResetDelay (d : Dev) : Dev :=
  if d.power.wdExpired && d.tb.refRuns then deviceReset 3 false { d with power := { d.power with wdExpired := false } }
  else d

/-- HIF_CTRL.RESET: honoured with its key and the image's permission, else ignored and logged (R331). -/
def hifResetRequest (v : Word) (d : Dev) : Dev :=
  if !bit v 1 then hifEnableBit v d
  else if decide (fld v 31 24 = 0x5A) && d.sec.hostResetOk then deviceReset 6 false d
  else logE sevNotice 0x024 v 0#32 d

/-- VDD_FIELD falls below power-good (R431). -/
def vddFieldLoss (d : Dev) : Dev := allOff { d with power := { d.power with fieldUp := false } }

/-- VDD_FIELD returns: the timebase restarts, counts clear, the scan and the calibration run (R216, R418, R434). -/
def fieldDiePowerUp (d : Dev) : Dev :=
  let d := fieldPowerUp { d with power := { d.power with fieldUp := true } }
  let d := setHif { d.hif with ready := false } d
  let d := failSafeField 2 d
  if coreRuns d && d.power.booted then calAll { d with power := { d.power with calDue := false } } else d

/-! ## Thermal shutdown and restart (R408–R410) -/

def thermalShutdown (programDone : Bool) (d : Dev) : Dev :=
  if d.power.shutdown then d
  else
    let d := nvmShutdown programDone { d with power := { d.power with shutdown := true } }
    let d := orphanField { d with lop := { d.lop with autoCompact := false }, hif := { d.hif with linkUp := false, enabled := false } }
    failSafeField 2 d

/-- TD_F has read below 100 °C for 2 s. -/
def thermalRestart (d : Dev) : Dev :=
  if !d.power.shutdown then d
  else
    let d := deviceReset 4 false { d with power := { d.power with shutdown := false } }
    setNvm { d.nvm with scanDone := false } d

/-! ## The end of a power-fail warning (R400, R401, R412, R421) -/

def pfwClear (d : Dev) : Dev :=
  if !coreRuns d || !d.lk.pfw || d.lk.pfi then d
  else
    let low := d.lk.brownout
    let d := logE sevNotice 0x003 (wd ((d.lk.rounds - d.lk.pfwStart) * 10)) (wd (b2n low)) d
    let d := setLk { d.lk with pfw := false, mainsPfw := false, brownout := false } d
    let d := setNvm (applyHeld { d.nvm with hold := false, erasePaused := false }) d
    if low then deviceReset 7 true d else settle (nvmGo d)

/-! ## Set-up registers of BAR0 (R322, R328) -/

/-- HIF_STATUS. -/
def hifStatus (d : Dev) : Word :=
  let h := d.hif
  wd (at' 16 h.errIndex + at' 8 h.err + at' 4 (b2n h.wrErr) + at' 3 (b2n h.enabled) + at' 2 (b2n d.pe.plan.isSome) +
    at' 1 (b2n h.ready))

def ringRegs (cq : Bool) (r : Ring) (k : Nat) : Word :=
  match k with
  | 0 => r.lo
  | 4 => r.hi
  | 8 => if cq then r.cfg else setFld r.cfg 9 8 r.rev
  | 12 => if cq then r.coal else 0#32
  | _ => 0#32

/-- A 32-bit read of the set-up space; what the map does not name reads 0. -/
def bar0Read (a : Nat) (d : Dev) : Word :=
  let h := d.hif
  if 0x100 ≤ a ∧ a < 0x500 then ringRegs false (sqOf d ((a - 0x100) / 0x20)) (a % 0x20)
  else if 0x500 ≤ a ∧ a < 0x900 then ringRegs true (cqOf d ((a - 0x500) / 0x20)) (a % 0x20)
  else if 0x900 ≤ a ∧ a < 0xD00 then
    let w := winOf d ((a - 0x900) / 0x10)
    (match a % 0x10 with
     | 0 => w.lo
     | 4 => w.hi
     | 8 => w.pages
     | _ => w.ctrl)
  else match a with
    | 0x00 => 0x62401F9B#32
    | 0x04 => wd (at' 8 Config.siliconMajor.toNat + Config.siliconMinor.toNat)
    | 0x10 => 6#32
    | 0x14 => h.versHost
    | 0x18 => wd (agreed d)
    | 0x20 => wd (b2n h.enabled)
    | 0x24 => hifStatus d
    | 0x30 => h.dbLo
    | 0x34 => h.dbHi
    | 0x38 => h.dbPoll
    | 0x40 => h.spLo
    | 0x44 => h.spHi
    | 0x48 => h.spCtrl
    | 0xF00 => wd (b2n h.sluice)
    | 0xF04 => wd (at' 16 h.closes + at' 1 (b2n h.drained) + b2n h.sluice)
    | _ => 0#32

/-- A set-up write that only a stopped interface takes. -/
def whileOff (f : HostIf → HostIf) (d : Dev) : Dev := if d.hif.enabled then wrErr d else setHif (f d.hif) d

/-- An interval of 1–1,000; other values are ignored and set WRERR. Reserved bits are ignored (DESIGN CHOICE, log entry
138). -/
def interval (v : Word) (f : Word → HostIf → HostIf) (d : Dev) : Dev :=
  if between 1 1000 (fld v 9 0) then setHif (f (wd (fld v 9 0)) d.hif) d else wrErr d

/-- The base of a ring: only while the interface is off or the ring is. -/
def ringBaseWrite (cq : Bool) (n : Nat) (high : Bool) (v : Word) (d : Dev) : Dev :=
  let r := ringOf d cq n
  if d.hif.enabled && ringOn r then wrErr d
  else putRing cq n (if high then { r with hi := v } else { r with lo := v }) d

def winWrite (n k : Nat) (v : Word) (d : Dev) : Dev :=
  let w := winOf d n
  if k = 12 then windowCtrlWrite n v d
  else if d.hif.enabled && bit w.ctrl 0 then wrErr d
  else setWin n (match k with
    | 0 => { w with lo := v }
    | 4 => { w with hi := v }
    | _ => { w with pages := v &&& 0x1FFFFF#32 }) d

/-- A ring's four registers; the offsets beyond ignore writes. -/
def ringWrite (cq : Bool) (n k : Nat) (v : Word) (d : Dev) : Dev :=
  match k with
  | 0 => ringBaseWrite cq n false v d
  | 4 => ringBaseWrite cq n true v d
  | 8 => ringCfgWrite cq n v d
  | 12 => if cq then setCq n { cqOf d n with coal := v &&& 0xFFFF00FF#32 } d else d
  | _ => d

def bar0Write (a : Nat) (v : Word) (d : Dev) : Dev :=
  if 0x100 ≤ a ∧ a < 0x500 then ringWrite false ((a - 0x100) / 0x20) (a % 0x20) v d
  else if 0x500 ≤ a ∧ a < 0x900 then ringWrite true ((a - 0x500) / 0x20) (a % 0x20) v d
  else if 0x900 ≤ a ∧ a < 0xD00 then winWrite ((a - 0x900) / 0x10) (a % 0x10) v d
  else match a with
    | 0x14 => versionsHostWrite v d
    | 0x20 => hifResetRequest v d
    | 0x24 => if bit v 4 then setHif { d.hif with wrErr := false } d else d
    | 0x30 => whileOff (fun h => { h with dbLo := v }) d
    | 0x34 => whileOff (fun h => { h with dbHi := v }) d
    | 0x38 => interval v (fun v h => { h with dbPoll := v }) d
    | 0x40 => whileOff (fun h => { h with spLo := v }) d
    | 0x44 => whileOff (fun h => { h with spHi := v }) d
    | 0x48 => interval v (fun v h => { h with spCtrl := v }) d
    | 0xF00 => sluiceWrite v d
    | _ => d

/-- A write of a register; an unaligned one is ignored and, on BAR0, sets WRERR (R322). A write of a resource that
another owner holds changes nothing (R32, R240). -/
def registerWrite (space : Space) (a v : Word) (p : Path) (d : Dev) : Dev :=
  match space with
  | .bar0 => if a.toNat % 4 ≠ 0 then wrErr d else settle (bar0Write a.toNat v d)
  | .block =>
    match releaseCheck (regResources a.toNat) (pathOwner p) d, writeReg p a.toNat v all1 d with
    | none, some (.done d) => settle d
    | _, _ => d

/-- The Rope receiver gains or loses a signal: ROPE_SD follows (R455). -/
def ropeSignalChange (sd : Bool) (d : Dev) : Dev := { d with pair := { d.pair with ropeSd := sd } }

/-! ## Commands -/

def execBoot (b : BootInfo) (s : State) := run (boot b) s
def execCoreRailLoss (rail : Fin 12) (s : State) := run (coreRailLoss rail.val) s
def execPor (fieldFell : Bool) (s : State) := run (por fieldFell) s
def execResetN (rises : Bool) (s : State) := run (resetN rises) s
def execWatchdog (s : State) := run watchdog s
def execWatchdogResetDelay (s : State) := run watchdogResetDelay s
def execHifResetRequest (v : Word) (s : State) := run (hifResetRequest v) s
def execVddFieldLoss (s : State) := run vddFieldLoss s
def execFieldDiePowerUp (s : State) := run fieldDiePowerUp s
def execThermalShutdown (programDone : Bool) (s : State) := run (thermalShutdown programDone) s
def execThermalRestart (s : State) := run thermalRestart s
def execPfwClear (s : State) := run pfwClear s
def execRegisterWrite (space : Space) (addr v : Word) (path : Path) (s : State) := run (registerWrite space addr v path) s
def execRopeSignalChange (sd : Bool) (s : State) := run (ropeSignalChange sd) s

end Sys2Proof.Machine
end

