-- ==== Sys2Proof/Machine/Towpath.lean ====
section
/-! DEFINITION. Towpath: the service console (R439–R452), technician access (R393, R449), the enrolment of the first
operator key (R450) and the analogue test bus. A reply is an entry of the outbox: whether `ok` or `err`, its word, the
values it reports in the order of the command's table. -/
namespace Sys2Proof.Machine

def setTow (t : Towpath) (d : Dev) : Dev := { d with tow := t }

/-! ## Replies -/

def say (word : String) (values : List Nat) (d : Dev) : Dev := emit (.console true word values) d
def sayErr (status : String) (values : List Nat) (d : Dev) : Dev := emit (.console false status values) d

/-- Status names (R346). -/
def statusName (st : Nat) : String :=
  if st = stBadOpcode then "BAD_OPCODE" else if st = stBadFormat then "BAD_FORMAT"
  else if st = stCheckFail then "CHECK_FAIL" else if st = stAuthRequired then "AUTH_REQUIRED"
  else if st = stAuthFail then "AUTH_FAIL" else if st = stEnvelope then "ENVELOPE"
  else if st = stBusy then "RESOURCE_BUSY" else if st = stNotReady then "NOT_READY"
  else if st = stNoCapacity then "NO_CAPACITY" else if st = stNotFound then "NOT_FOUND"
  else if st = stConflict then "CONFLICT" else if st = stRetired then "UNIT_RETIRED" else "HW_FAULT"

/-- The failure of an operation as a reply. -/
def sayFail (x : Done) (d : Dev) : Dev := sayErr (statusName x.status) [x.r0.toNat, x.r1.toNat] d

/-! ## A line -/

/-- The console runs (R441). -/
def consoleOn (d : Dev) : Bool := coreRuns d && d.power.booted

/-- Every complete line: the rate stands (R440), the 30 minutes begin again (R393). -/
def heard (d : Dev) : Dev := setTow { d.tow with baudPending := false, lastCmd := runSec d } d

def endEnroll (d : Dev) : Dev := setTow { d.tow with enroll := none, confirmAt := none } d

/-- A line that is no part of an enrolment: it ends one that is open (R450), and the command is not run. -/
def line (f : Dev → Dev) (d : Dev) : Dev :=
  if !consoleOn d then d
  else if d.tow.enroll.isSome then sayErr "AUTH_FAIL" [] (endEnroll (heard d))
  else settle (f (heard d))

/-- A Service command (R444). -/
def service (f : Dev → Dev) : Dev → Dev :=
  line fun d => if d.sec.debug = 0 || d.tow.tech then f d else sayErr "AUTH_REQUIRED" [] d

/-! ## Read commands (R445, R446) -/

def towId (d : Dev) : Dev :=
  say "id" [Config.siliconMajor.toNat, Config.siliconMinor.toNat, d.sec.debug, d.sec.active, b2n d.sec.trial] d

/-- Reserved load in blocks/s, and its limit (R104). -/
def loadNow (d : Dev) : List Nat :=
  let x := reservedLoad d ⟨true, 4096⟩ false
  [x.1 / x.2, admitLimit d]

/-- Each busy slot: number, opcode, state, items done, items in all (R367). -/
def busyOps (d : Dev) : List Nat :=
  d.lop.slots.flatMap fun p => [p.1, p.2.opcode, p.2.st, p.2.items, p.2.total]

/-- Each enabled ring pair: descriptors pending on the SQ, entries used and reserved on the CQ. -/
def ringPairs (d : Dev) : List Nat :=
  (List.range 32).flatMap fun n =>
    if ringOn (sqOf d n) || ringOn (cqOf d n) then [n, ringUsed (sqOf d n), ringUsed (cqOf d n), cqReserved d n] else []

def towHealth (d : Dev) : Dev :=
  say "health"
    ([b2n (!d.link.coreLost), d.link.retries, (hifStatus d).toNat, b2n d.hif.linkUp, agreed d, d.th.level] ++ loadNow d ++
      retiredUnits d ++ busyOps d ++ ringPairs d) d

/-- Effective value of THERM_Tn; TD_F has no substitute (R403, R404). -/
def effTemp (d : Dev) (n : Nat) : Word := if n = 16 then Tab.get 0#32 d.th.raw 16 else Tab.get 0#32 d.th.eff n

/-- The 17 values, each followed by whether it is substituted, then the level. -/
def towTemp (d : Dev) : Dev :=
  say "temp"
    (((List.range 17).flatMap fun n => [(effTemp d n).toNat, b2n (decide (n < 16) && (condemned d.th).contains n)]) ++
      [d.th.level]) d

/-- The rails and VSUP_SENSE with their verdicts, then PFI's. -/
def towRails (d : Dev) : Dev :=
  say "rails"
    (((List.range 12).flatMap fun k =>
        let v := Tab.get 0#32 d.lk.rails k
        [v.toNat, b2n (!railOutside k v)]) ++ [b2n (!d.lk.pfi)]) d

/-- Measured mains voltage: point 0x4F_F501. -/
def mainsRms (d : Dev) : Word := ((recOf d 0x4FF501).map (·.value)).getD 0#32

def towMains (d : Dev) : Dev :=
  say "mains"
    [tbStateCode d.tb.st, d.tb.mode, d.tb.rate.toNat, (mainsRms d).toNat, d.tb.ofs.toNat, d.tb.err.toNat, d.tb.glitch,
     d.tb.missed] d

/-- Date, time and weekday as the Towpath snapshot takes them, STATUS, trim, discipline, the alarms, PWRON and its source. -/
def towRtc (d : Dev) : Dev :=
  let d := latchFields .towpath d
  let f := d.clk.snapTow
  say "rtc"
    [f.year, f.month, f.day, f.hour, f.min, f.sec, f.wday, d.clk.status.toNat, d.clk.ctrl.toNat, d.clk.trim.toNat,
     d.clk.alm0Date.toNat, d.clk.alm0Time.toNat, d.clk.alm1Time.toNat, d.clk.wake.toNat, d.clk.byte31.toNat] d

/-- An entry's words. -/
def entryWords (e : LogEntry) : List Nat :=
  [e.seq, e.wall.toNat, e.stamp.cycle.toNat, e.stamp.angle.toNat, e.severity, e.code, e.unit.toNat, e.d0.toNat, e.d1.toNat]

/-- Sixteen entries of the log in RAM. -/
def towLog (from' : Option Word) (d : Dev) : Dev :=
  let es := match from' with
    | none => (capList 16 d.lk.ramLog).reverse
    | some n => entriesFrom d.lk.ramLog n.toNat 16
  say "log" (es.flatMap entryWords) d

def towClaim (d : Dev) : Dev :=
  say "claim"
    [d.belay.ownerUnit, (liveClaim d .a).toNat, b2n (track d .a).live, (liveClaim d .b).toNat, b2n (track d .b).live,
     belayState d, d.pair.role, d.pair.twinLow.toNat, d.pair.twinHigh.toNat, b2n d.pair.linkUp] d

/-- Value, quality, kind, active priority, stamp, check result. -/
def towPoint (id : Nat) (d : Dev) : Dev :=
  if d.pe.plan.isNone then sayErr "NOT_READY" [] d
  else
    let x := readRec id d
    match x.1 with
    | none => sayErr "NOT_FOUND" [id] d
    | some (r, good) =>
      let r := (recOf x.2 id).getD r
      say "point" [id, r.value.toNat, recQ r, r.kind, r.prio, r.stamp.cycle.toNat, r.stamp.angle.toNat, b2n good] x.2

/-- Value and quality that `ui` shows: what was captured last, or the level or count of modes 5 and 6. -/
def uiShown (d : Dev) (n : Nat) : Word × Nat :=
  let u := uiOf d n
  if 5 ≤ uiMode u then (uiNow d n, qGood) else (u.lastValue, u.lastQuality)

def uiReply (n : Nat) (d : Dev) : Dev :=
  let u := uiOf d n
  let x := uiShown d n
  say "UI" [n, uiMode u, x.1.toNat, x.2, uiSlot u, (slotRes (adcOf d (uiAdc n)) (uiSlot u)).toNat] d

/-- The conversion answers when it ends (R207). -/
def uiNowCmd (n : Nat) (d : Dev) : Dev :=
  let m := uiMode (uiOf d n)
  let u := unitAdc (uiAdc n)
  if d.link.coreLost then sayErr "HW_FAULT" [] d
  else if m = 0 then sayErr "CONFLICT" [] d
  else if 5 ≤ m then uiReply n d
  else if retired d u then sayErr "UNIT_RETIRED" [u] d
  else (requestUrgent (uiAdc n) (.readNow n none) d).getD (sayErr "NOT_READY" [] d)

/-! ## Counters -/

/-- A count summed over every loop. -/
def loopSum (d : Dev) (f : Loop → Nat) : Nat :=
  ((d.loops.fabric.map fun p => f p.2) ++ d.loops.fast.map fun p => f p.2).sum

def covPendingCount (d : Dev) : Nat :=
  (d.pe.subs.filter fun p => match p.2 with
    | .sub s => s.pending
    | _ => false).length

def portCounts (d : Dev) : List Nat :=
  d.ports.ports.flatMap fun p =>
    if p.2.isOpen then [p.1, p.2.dropRaw, p.2.dropCore, p.2.guardRefused, p.2.checkFail] else []

def kwelaCounts (d : Dev) : List Nat :=
  d.kw.trunks.flatMap fun p =>
    [p.1, p.2.crc, p.2.collision, p.2.retry, p.2.silents, p.2.diag,
     (d.kw.devices.filter fun q => q.2.trunk == p.1).length]

def converterCounts (d : Dev) : List Nat :=
  (List.range 4).flatMap fun c => [(adcOf d c).aborted, (adcOf d c).trigLost, (adcOf d c).ovrCount]

/-- Every count of the field notes, and the wear counters. -/
def towCounters (d : Dev) : Dev :=
  say "counters"
    ([(d.tb.entries.filter fun p => aeEnabled p.2).length, d.tb.lateCount,
      (d.integ.transients.map fun p => p.2.length).sum,
      d.pe.alarms.length, (d.pe.alarms.filter fun a => a.ackNeeded && !a.acked).length, d.pe.lostTotal, covPendingCount d,
      loopSum d (·.overrun), loopSum d (·.stretch), loopSum d (·.mismatch), loopSum d (·.missing),
      loopSum d fun l => b2n (l.st == 4)] ++
      converterCounts d ++ portCounts d ++ kwelaCounts d ++
      [d.hif.ignored, d.sec.envRefused, d.sec.authFails, freePct d.nvm, d.nvm.mode, d.nvm.discarded, d.nvm.completed,
       d.nvm.torn] ++ (List.range 128).map fun k => Tab.get 0 d.nvm.counters k) d

def towCause (d : Dev) : Dev := say "cause" [d.lk.cause] d

/-! ## Diagnostics, the analogue test bus, the line rate -/

/-- The diagnostic cycle answers when it ends (R236). -/
def towDiag (ch : Nat) (d : Dev) : Dev :=
  if d.link.coreLost then sayErr "HW_FAULT" [] d
  else startDiag ch (setTow { d.tow with diagCh := some ch } d)

/-- A new source replaces the previous one (R451). -/
def towAtb (src : AtbSource) (d : Dev) : Dev :=
  match claimCheck [resAtb] srcLk d with
  | some f => sayFail (claimError f) d
  | none => say "atb" [] (claimAll [resAtb] srcLk (setTow { d.tow with atb := some src } d))

/-- ATB_OUT is tied to ATB_GND and the route is free; a claim of another owner stands. -/
def atbOff (d : Dev) : Dev :=
  let d := setTow { d.tow with atb := none } d
  if ownerOf d resAtb = some srcLk then releaseAll [resAtb] d else d

def baudRates : List Nat := [9600, 19200, 38400, 57600, 115200, 230400, 460800, 921600]

/-- The reply goes out at the old rate; the new one must carry a line within 60 s (R440). -/
def towBaud (rate : Nat) (d : Dev) : Dev :=
  if baudRates.contains rate then
    let e := say "baud" [rate] d
    setTow { e.tow with baud := rate, baudPending := true } e
  else sayErr "BAD_FORMAT" [] d

def baudRevert (d : Dev) : Dev :=
  if d.tow.baudPending then setTow { d.tow with baud := 115200, baudPending := false } d else d

/-! ## Technician access (R393, R449) -/

/-- Seconds a block has still to run. -/
def blockLeft (d : Dev) : Nat := d.tow.blockFor - (runSec d - d.tow.blockAt)

/-- The forms of `auth` that need the technician secret; a block answers those that open access. -/
def withSecret (f : List Byte → Dev → Dev) (d : Dev) : Dev :=
  match d.sec.techSecret with
  | none => sayErr "NOT_READY" [] d
  | some k => if d.tow.blocked then sayErr "AUTH_FAIL" [blockLeft d] d else f k d

/-- Sixteen hexadecimal digits from the random generator. -/
def challengeWords (d : Dev) : List Word := [Config.trng d.sec.draws, Config.trng (d.sec.draws + 1)]

/-- A challenge: its digits, level, and the second it was issued. -/
def towAuth (level : Nat) : Dev → Dev :=
  withSecret fun _ d =>
    let c := challengeWords d
    say "challenge" (c.map (·.toNat) ++ [level])
      (setTow { d.tow with challenge := some (c, level, runSec d) } (setSec { d.sec with draws := d.sec.draws + 2 } d))

/-- A word with its first digit in its first byte. -/
def digitBytes (w : Word) : List Byte := (wordBytes w).reverse

/-- The first 40 bits of the authentication code over challenge and level. -/
def tokenOf (secret : List Byte) (c : List Word) (level : Nat) : Nat :=
  ((fixLen 5 (Config.hmacSha256 secret (c.flatMap digitBytes ++ [BitVec.ofNat 8 level]))).foldl
    (fun n b => 256 * n + b.toNat) 0)

/-- Seconds of the block after the `n`-th wrong token in a row, `n` from 3 on. -/
def blockTime (n : Nat) : Nat := min 3600 (60 * 2 ^ (n - 3))

def wrongToken (d : Dev) : Dev :=
  let n := d.tow.wrongRun + 1
  let t := { d.tow with wrongRun := n }
  sayErr "AUTH_FAIL" []
    (setTow (if n < 3 then t else { t with blocked := true, blockFor := blockTime n, blockAt := runSec d }) d)

/-- Access opens; level 2 also unlocks debug, except where it is DISABLED. -/
def openTech (level : Nat) (d : Dev) : Dev :=
  let unlock := decide (level = 2 ∧ d.sec.debug = 1)
  let d := setSec (if unlock then { d.sec with debug := 2 } else d.sec) d
  say "level" [if level = 2 ∧ d.sec.debug = 3 then 1 else level]
    (setTow { d.tow with tech := true, wrongRun := 0 } d)

/-- A token answers the most recent challenge, once. -/
def towToken (token : Nat) : Dev → Dev :=
  withSecret fun k d =>
    let e := setTow { d.tow with challenge := none } d
    match d.tow.challenge with
    | some (c, level, _) => if token = tokenOf k c level then openTech level e else wrongToken e
    | none => wrongToken e

/-- Access and debug unlock end. -/
def closeTech (d : Dev) : Dev :=
  let d := endTech d
  setSec (if d.sec.debug = 2 then { d.sec with debug := 1 } else d.sec) d

def towAuthOff (d : Dev) : Dev := if d.sec.techSecret.isNone then sayErr "NOT_READY" [] d else say "off" [] (closeTech d)

/-- 30 minutes without a command. -/
def idleTimeout (d : Dev) : Dev := settle (atbOff (closeTech d))

def authBlockEnd (d : Dev) : Dev := setTow { d.tow with blocked := false, blockFor := 0 } d

def challengeExpiry (d : Dev) : Dev := setTow { d.tow with challenge := none } d

/-! ## Enrolment of the first operator key (R376, R450) -/

def authEnroll (d : Dev) : Dev :=
  if d.sec.debug = 0 ∧ d.sec.keys.isEmpty then say "enroll" [4] (setTow { d.tow with enroll := some [], confirmAt := none } d)
  else sayErr "CONFLICT" [] d

/-- The first 24 bits of the key's digest. -/
def confirmCode (key : List Byte) : Nat := (fixLen 3 (Config.sha256 key)).foldl (fun n b => 256 * n + b.toNat) 0

/-- The key is whole: it is checked, and its code asked for. -/
def keyWhole (key : List Byte) (d : Dev) : Dev :=
  if Config.onP256 key then say "confirm" [confirmCode key] (setTow { d.tow with enroll := some key, confirmAt := some (runSec d) } d)
  else sayErr "BAD_FORMAT" [] (endEnroll d)

/-- A line of 32 digits: a quarter of the key, or any other line once the key is whole. -/
def keyLine (half : List Byte) (d : Dev) : Dev :=
  if !consoleOn d then d
  else
    let d := heard d
    match d.tow.enroll with
    | none => sayErr "BAD_OPCODE" [] d
    | some k =>
      if half.length ≠ 16 ∨ 64 ≤ k.length then sayErr "AUTH_FAIL" [] (endEnroll d)
      else if 64 ≤ k.length + 16 then keyWhole (k ++ half) d
      else setTow { d.tow with enroll := some (k ++ half) } d

def enrollFirst (key : List Byte) (d : Dev) : Dev :=
  setSec { d.sec with keys := Tab.put d.sec.keys 0 { pub := key, mask := permMask.toNat, highest := 0 }, debug := 1 } d

def authConfirm (code : Nat) (d : Dev) : Dev :=
  if !consoleOn d then d
  else
    let d := heard d
    match d.tow.enroll with
    | some k =>
      if d.tow.confirmAt.isSome ∧ k.length = 64 ∧ code = confirmCode k then say "enrolled" [0] (enrollFirst k (endEnroll d))
      else sayErr "AUTH_FAIL" [] (endEnroll d)
    | none => if d.sec.techSecret.isNone then sayErr "NOT_READY" [] d else sayErr "AUTH_FAIL" [] d

def enrollTimeout (d : Dev) : Dev :=
  if d.tow.enroll.isSome then sayErr "AUTH_FAIL" [] (endEnroll d) else d

/-! ## Service writes (R447, R448) -/

def serviceOp (id : Nat) (act : PointAct) (d : Dev) : PointOp :=
  { id := id, act := act, stamp := now d, source := srcLk, writer := .inner, authorised := true }

/-- An operation of the console, compared, committed behind what waits and delivered: what the stage answered, the failure
of the write itself (R54, R64). -/
def consolePoint (id : Nat) (act : PointAct) (d : Dev) : Option StageRes × Option Done × Dev :=
  let op := serviceOp id act d
  let x := compared (perform op) (commitQueued op d)
  match x.1 with
  | some .stored =>
    let y := drainPoint id none x.2
    (y.1, none, y.2)
  | some f => (none, some (writeFailure id 0#32 (recOf d id) f), x.2)
  | none => (none, some (fail stHwFault (wd unitPipes)), x.2)

def holdService (id : Nat) (d : Dev) : Dev :=
  setTow { d.tow with services := if d.tow.services.contains id then d.tow.services else d.tow.services ++ [id] } d

/-- A service write of `v`; `res` replies to one that the stage applies. -/
def serviceWrite (id : Nat) (v : Word) (res : Dev → Dev) (d : Dev) : Dev :=
  if d.pe.plan.isNone then sayErr "NOT_READY" [] d
  else if d.link.coreLost then sayErr "HW_FAULT" [] d
  else if !d.pe.p0 && !d.pe.p1 then sayErr "HW_FAULT" [unitPipes] d
  else if !d.tow.services.contains id && decide (16 ≤ d.tow.services.length) then sayErr "NO_CAPACITY" [] d
  else if d.pe.testing then
    say "DEFERRED" [id] (enqueue (serviceOp id (.write v qGood none 1) d) (holdService id d))
  else
    let r := consolePoint id (.write v qGood none 1) (holdService id d)
    match r.2.1, r.1 with
    | some x, _ => sayFail x (setTow { r.2.2.tow with services := d.tow.services } r.2.2)
    | none, some .accepted => res r.2.2
    | none, some (.envelope l) => sayErr "ENVELOPE" [l.toNat] r.2.2
    | none, _ => say "DEFERRED" [id] r.2.2

def towAo (n : Nat) (v : Word) : Dev → Dev :=
  serviceWrite (aoId n) v fun d => say "ao" [n, (aoOf d n).applied.toNat] d
def towTg (n : Nat) (v : Word) : Dev → Dev :=
  serviceWrite (tgId n) v fun d => say "tg" [n, (tgOf d n).value.toNat] d
def towFan (n : Nat) (v : Word) : Dev → Dev :=
  serviceWrite (fanId n) v fun d => say "fan" [n, (fanOf d n).applied.toNat] d

/-- x of a current in mA; none outside the span of a PROPORTIONAL channel (R448). -/
def testX (c : Chan) (ma : Nat) : Option Word :=
  let i := F32.rat ma 1000
  if ma = 0 then some F32.zero
  else if chRelay c then some F32.hundred
  else if F32.lt i c.imin || F32.gt i c.imax then none
  else some (F32.div (F32.mul F32.hundred (F32.sub i c.imin)) (F32.sub c.imax c.imin))

/-- What is written answers when the channel has resolved it; what never reached the channel has answered already. -/
def towCoil (ch ma : Nat) (d : Dev) : Dev :=
  match testX (chanOf d ch) ma with
  | none => sayErr "BAD_FORMAT" [] d
  | some x =>
    let d := setTow { d.tow with coilWait := some (ch, false) } d
    let e := serviceWrite (predefBase + coilPoint ch 0) x id d
    if e.tow.coilWait = some (ch, false) then setTow { e.tow with coilWait := none } e else e

def outPoint : OutRef → Nat
  | .ao n => aoId n.val
  | .coil ch => predefBase + coilPoint ch.val 0
  | .tg n => tgId n.val
  | .fan n => fanId n.val

/-- What `release` reports of the output. -/
def outNow (d : Dev) : OutRef → List Nat
  | .ao n => [n.val, (aoOf d n.val).applied.toNat]
  | .coil ch => [ch.val, (chanOf d ch.val).st]
  | .tg n => [n.val, (tgOf d n.val).value.toNat]
  | .fan n => [n.val, (fanOf d n.val).applied.toNat]

def dropService (id : Nat) (d : Dev) : Dev := setTow { d.tow with services := d.tow.services.filter (· != id) } d

def towRelease (o : OutRef) (d : Dev) : Dev :=
  let id := outPoint o
  if !d.tow.services.contains id then sayErr "NOT_FOUND" [id] d
  else if !d.pe.p0 && !d.pe.p1 then sayErr "HW_FAULT" [unitPipes] d
  else if d.pe.testing then say "DEFERRED" [id] (enqueue (serviceOp id (.relinquish 1) d) (dropService id d))
  else
    let r := consolePoint id (.relinquish 1) (dropService id d)
    match r.2.1 with
    | some x => sayFail x r.2.2
    | none => say "release" (outNow r.2.2 o) r.2.2

/-! ## Self-test and registers -/

/-- The verdict answers when the test ends (R314, R443). -/
def towSelftest (u : Nat) (d : Dev) : Dev :=
  if !unitKnown u then sayErr "BAD_FORMAT" [] d
  else if retired d u then sayErr "UNIT_RETIRED" [u] d
  else dispatchTest u { blankTest with console := true } d

/-- Block registers without a writable field. -/
def readOnlyReg (a : Nat) : Bool :=
  let off := a % 0x100000
  let r := off % 0x1000
  match a / 0x100000 with
  | 0x10 => [0x04, 0x0C, 0x10, 0x14, 0x1C, 0x20].contains off
  | 0x11 => off == 0x08
  | 0x12 =>
    if off < 0x4000 then r == 4 || (decide (off < 0x2000 ∧ 0x10 ≤ r ∧ r < 0x20)) || decide (0x400 ≤ r ∧ r < 0x500)
    else decide (0x8000 ≤ off ∧ off < 0x8300) && off % 16 == 12
  | 0x13 => r == 4 || (decide (0x100 ≤ r ∧ r < 0x280) && decide (0x24 ≤ r % 0x40))
  | 0x14 =>
    if off < 0x1000 then false else if off < 0x2000 then off % 16 == 8
    else decide (off < 0x3000) && off % 16 == 4
  | 0x15 => [0x00, 0x08, 0x0C].contains off
  | 0x16 => true
  | 0x17 => [0x04, 0x08, 0x0C, 0x10, 0x14, 0x1C].contains off
  | 0x18 => off % 0x100 == 0 || off % 0x100 == 8
  | 0x19 => true
  | 0x1A => [0x00, 0x08, 0x0C].contains off
  | _ => false

/-- Debug states in which every register may be read, and written (R392). -/
def debugOpen (d : Dev) : Bool := d.sec.debug == 0 || d.sec.debug == 2

def towPeek (a : Nat) (halves : Bool) (d : Dev) : Dev :=
  if a % 4 ≠ 0 then sayErr "BAD_FORMAT" [] d
  else if !(debugOpen d || readOnlyReg a || (viewReg .towpath a d).isNone && a != 0x01100008) then
    sayErr "AUTH_REQUIRED" [] d
  else match readReg .towpath a d with
    | none => sayErr "NOT_FOUND" [a] d
    | some (w, d) => say "peek" (if halves then [w.toNat % 65536, w.toNat / 65536] else [w.toNat]) d

def towPoke (a : Nat) (v mask : Word) (d : Dev) : Dev :=
  if a % 4 ≠ 0 then sayErr "BAD_FORMAT" [] d
  else if !debugOpen d then sayErr "AUTH_REQUIRED" [] d
  else
    let r := guardedWrite .towpath srcLk a v mask d
    if r.1.status = stOk then say "poke" [r.1.r0.toNat] r.2 else sayFail r.1 r.2

def unknownLine : BadLine → Dev → Dev
  | .unknown => sayErr "BAD_OPCODE" []
  | _ => sayErr "BAD_FORMAT" []

/-! ## Commands -/

def execTowpathId (s : State) := run (line towId) s
def execTowpathHealth (s : State) := run (line towHealth) s
def execTowpathTemp (s : State) := run (line towTemp) s
def execTowpathRails (s : State) := run (line towRails) s
def execTowpathMains (s : State) := run (line towMains) s
def execTowpathRtc (s : State) := run (line towRtc) s
def execTowpathLog (seq : Option Word) (s : State) := run (line (towLog seq)) s
def execTowpathClaim (s : State) := run (line towClaim) s
def execTowpathPoint (id : Word) (s : State) := run (line (towPoint id.toNat)) s
def execTowpathUi (n : Fin 48) (s : State) := run (line (uiReply n.val)) s
def execTowpathUiNow (n : Fin 48) (s : State) := run (line (uiNowCmd n.val)) s
def execTowpathCounters (s : State) := run (line towCounters) s
def execTowpathResetCause (s : State) := run (line towCause) s
def execTowpathCoilDiag (ch : Fin 48) (s : State) := run (line (towDiag ch.val)) s
def execTowpathAtb (src : AtbSource) (s : State) := run (line (towAtb src)) s
def execTowpathAtbOff (s : State) := run (line fun d => say "atb" [] (atbOff d)) s
def execTowpathBaud (rate : Nat) (s : State) := run (line (towBaud rate)) s
def execBaudRevert (s : State) := run baudRevert s
def execTowpathAuth (s : State) := run (line (towAuth 1)) s
def execTowpathAuth2 (s : State) := run (line (towAuth 2)) s
def execTowpathAuthToken (token : Nat) (s : State) := run (line (towToken token)) s
def execTowpathAuthOff (s : State) := run (line towAuthOff) s
def execTowpathAuthEnroll (s : State) := run (line authEnroll) s
def execTowpathAuthConfirm (code : Nat) (s : State) := run (authConfirm code) s
def execEnrollTimeout (s : State) := run enrollTimeout s
def execTowpathIdleTimeout (s : State) := run idleTimeout s
def execTowpathAo (n : Fin 16) (volts : Word) (s : State) := run (service (towAo n.val volts)) s
def execTowpathCoilTest (ch : Fin 48) (ma : Nat) (s : State) := run (service (towCoil ch.val ma)) s
def execTowpathTg (n : Fin 16) (ac : Word) (s : State) := run (service (towTg n.val ac)) s
def execTowpathFan (n : Fin 8) (pct : Word) (s : State) := run (service (towFan n.val pct)) s
def execTowpathRelease (out : OutRef) (s : State) := run (service (towRelease out)) s
def execTowpathSelftest (unit : Word) (s : State) := run (service (towSelftest unit.toNat)) s
def execTowpathPeek (addr : Word) (half : Bool) (s : State) := run (line (towPeek addr.toNat half)) s
def execTowpathPoke (addr v mask : Word) (s : State) := run (line (towPoke addr.toNat v mask)) s
def execAuthBlockEnd (s : State) := run authBlockEnd s
def execChallengeExpiry (s : State) := run challengeExpiry s
def execTowpathEnrollKeyLine (half : List Byte) (s : State) := run (keyLine half) s
def execTowpathUnknownLine (why : BadLine) (s : State) := run (line (unknownLine why)) s

end Sys2Proof.Machine
end

