-- ==== Sys2Proof/Machine/Dispatch.lean ====
section
/-! DEFINITION. Dispatch: one arm per command, each a direct call of its meaning. -/
namespace Sys2Proof.Machine

def exec (i : Instr) (s : State) : Host.Outcome State Fault Refusal :=
  match i with
  | .dieLinkFrame fromCore crcOk => Sys2Proof.Machine.execDieLinkFrame fromCore crcOk s
  | .fieldDieLinkLoss => Sys2Proof.Machine.execFieldDieLinkLoss s
  | .coreDieLinkLoss => Sys2Proof.Machine.execCoreDieLinkLoss s
  | .dieLinkReturn => Sys2Proof.Machine.execDieLinkReturn s
  | .crossingQualified rising edge hz => Sys2Proof.Machine.execCrossingQualified rising edge hz s
  | .crossingMissed => Sys2Proof.Machine.execCrossingMissed s
  | .msPresentLapse => Sys2Proof.Machine.execMsPresentLapse s
  | .cycleBoundary rms => Sys2Proof.Machine.execCycleBoundary rms s
  | .holdoverTimeout => Sys2Proof.Machine.execHoldoverTimeout s
  | .tbCtrlWrite v => Sys2Proof.Machine.execTbCtrlWrite v s
  | .tbPhaseOfsWrite v => Sys2Proof.Machine.execTbPhaseOfsWrite v s
  | .tbAngleRead => Sys2Proof.Machine.execTbAngleRead s
  | .refClockStop => Sys2Proof.Machine.execRefClockStop s
  | .refClockRestart => Sys2Proof.Machine.execRefClockRestart s
  | .angleEventDispatch angle => Sys2Proof.Machine.execAngleEventDispatch angle s
  | .pointOperation first again => Sys2Proof.Machine.execPointOperation first again s
  | .lonePipelineTest => Sys2Proof.Machine.execLonePipelineTest s
  | .minTimeLockExpiry id => Sys2Proof.Machine.execMinTimeLockExpiry id s
  | .staleTimeout id => Sys2Proof.Machine.execStaleTimeout id s
  | .alarmDelayExpiry id => Sys2Proof.Machine.execAlarmDelayExpiry id s
  | .pendingChangeDelivery target => Sys2Proof.Machine.execPendingChangeDelivery target s
  | .trendPeriodicSample log => Sys2Proof.Machine.execTrendPeriodicSample log s
  | .fabricLoopTick loop => Sys2Proof.Machine.execFabricLoopTick loop s
  | .loopEvaluationStart ref engine => Sys2Proof.Machine.execLoopEvaluationStart ref engine s
  | .loopEvaluationEnd ref on upset => Sys2Proof.Machine.execLoopEvaluationEnd ref on upset s
  | .peerResultArrival ref stamp => Sys2Proof.Machine.execPeerResultArrival ref stamp s
  | .peerResultTimeout ref on => Sys2Proof.Machine.execPeerResultTimeout ref on s
  | .loopOverrun ref => Sys2Proof.Machine.execLoopOverrun ref s
  | .zoneStep zone upset => Sys2Proof.Machine.execZoneStep zone upset s
  | .zoneSkipped zone => Sys2Proof.Machine.execZoneSkipped zone s
  | .rtcIncrement => Sys2Proof.Machine.execRtcIncrement s
  | .rtcHalt => Sys2Proof.Machine.execRtcHalt s
  | .rtcRelease => Sys2Proof.Machine.execRtcRelease s
  | .rtcFieldWrite path field v => Sys2Proof.Machine.execRtcFieldWrite path field v s
  | .rtcSubsecRead path => Sys2Proof.Machine.execRtcSubsecRead path s
  | .rtcWakeWrite v => Sys2Proof.Machine.execRtcWakeWrite v s
  | .wake => Sys2Proof.Machine.execWake s
  | .bkByte31Write v => Sys2Proof.Machine.execBkByte31Write v s
  | .mainsDiscWindowEnd => Sys2Proof.Machine.execMainsDiscWindowEnd s
  | .backupSupplySwitch aonMv vbakMv => Sys2Proof.Machine.execBackupSupplySwitch aonMv vbakMv s
  | .backupDomainPowerUp => Sys2Proof.Machine.execBackupDomainPowerUp s
  | .scheduleEvaluation => Sys2Proof.Machine.execScheduleEvaluation s
  | .oscillator32kStop => Sys2Proof.Machine.execOscillator32kStop s
  | .sincWord adc raw clip stamp => Sys2Proof.Machine.execSincWord adc raw clip stamp s
  | .adcPwmTrigger bank => Sys2Proof.Machine.execAdcPwmTrigger bank s
  | .adcTimerTrigger adc => Sys2Proof.Machine.execAdcTimerTrigger adc s
  | .urgentConversionEnd adc raw clip stamp => Sys2Proof.Machine.execUrgentConversionEnd adc raw clip stamp s
  | .refCheck vext vfield => Sys2Proof.Machine.execRefCheck vext vfield s
  | .refReady => Sys2Proof.Machine.execRefReady s
  | .resultRegisterRead adc slot => Sys2Proof.Machine.execResultRegisterRead adc slot s
  | .resultHalfRead adc slot high => Sys2Proof.Machine.execResultHalfRead adc slot high s
  | .uiLevelAccepted ui closed stamp => Sys2Proof.Machine.execUiLevelAccepted ui closed stamp s
  | .calStageEnd adc zero ref => Sys2Proof.Machine.execCalStageEnd adc zero ref s
  | .coilWriteDelivery ch => Sys2Proof.Machine.execCoilWriteDelivery ch s
  | .coilPwmPeriod ch imeas samples => Sys2Proof.Machine.execCoilPwmPeriod ch imeas samples s
  | .pullInEnd ch why => Sys2Proof.Machine.execPullInEnd ch why s
  | .motionDip ch codes => Sys2Proof.Machine.execMotionDip ch codes s
  | .releaseEnd ch => Sys2Proof.Machine.execReleaseEnd ch s
  | .deferTimeout ch => Sys2Proof.Machine.execDeferTimeout ch s
  | .dutySubwindowEnd ch => Sys2Proof.Machine.execDutySubwindowEnd ch s
  | .offStateTest bank bankMv nodesMv stayLow => Sys2Proof.Machine.execOffStateTest bank bankMv nodesMv stayLow s
  | .shortSupOn ch => Sys2Proof.Machine.execShortSupOn ch s
  | .shortGndOn ch => Sys2Proof.Machine.execShortGndOn ch s
  | .openOn ch => Sys2Proof.Machine.execOpenOn ch s
  | .bankOc bank => Sys2Proof.Machine.execBankOc bank s
  | .bankSupply bank => Sys2Proof.Machine.execBankSupply bank s
  | .diagnosticCycleEnd ch r => Sys2Proof.Machine.execDiagnosticCycleEnd ch r s
  | .vdrvUndervoltage => Sys2Proof.Machine.execVdrvUndervoltage s
  | .aoWriteDelivery n => Sys2Proof.Machine.execAoWriteDelivery n s
  | .aoShort n => Sys2Proof.Machine.execAoShort n s
  | .tgWriteDelivery n => Sys2Proof.Machine.execTgWriteDelivery n s
  | .tgZeroCrossing n rising => Sys2Proof.Machine.execTgZeroCrossing n rising s
  | .fanWriteDelivery n => Sys2Proof.Machine.execFanWriteDelivery n s
  | .tachEdge n dtUs => Sys2Proof.Machine.execTachEdge n dtUs s
  | .fanStall n => Sys2Proof.Machine.execFanStall n s
  | .sensorPollDue bus sensor late sdaLow => Sys2Proof.Machine.execSensorPollDue bus sensor late sdaLow s
  | .triggerWaitEnd bus sensor sdaLow => Sys2Proof.Machine.execTriggerWaitEnd bus sensor sdaLow s
  | .sensorPollReadEnd bus sensor bytes stamp => Sys2Proof.Machine.execSensorPollReadEnd bus sensor bytes stamp s
  | .pollRetry bus sensor sdaLow => Sys2Proof.Machine.execPollRetry bus sensor sdaLow s
  | .clockStretchTimeout bus sensor => Sys2Proof.Machine.execClockStretchTimeout bus sensor s
  | .envelopeSlewUpdate out dtUs => Sys2Proof.Machine.execEnvelopeSlewUpdate out dtUs s
  | .frameReceived port frame => Sys2Proof.Machine.execFrameReceived port frame s
  | .rawFramePost port => Sys2Proof.Machine.execRawFramePost port s
  | .bacnetRequest port req => Sys2Proof.Machine.execBacnetRequest port req s
  | .modbusServerRequest port req => Sys2Proof.Machine.execModbusServerRequest port req s
  | .modbusPollDue entry => Sys2Proof.Machine.execModbusPollDue entry s
  | .modbusPollReply entry regs stamp => Sys2Proof.Machine.execModbusPollReply entry regs stamp s
  | .modbusResponseTimeout entry => Sys2Proof.Machine.execModbusResponseTimeout entry s
  | .dhcpRenew port lease => Sys2Proof.Machine.execDhcpRenew port lease s
  | .kwelaBeaconTimer => Sys2Proof.Machine.execKwelaBeaconTimer s
  | .kwelaTransmit trunk collision => Sys2Proof.Machine.execKwelaTransmit trunk collision s
  | .hello trunk bytes stamp => Sys2Proof.Machine.execHello trunk bytes stamp s
  | .value trunk bytes stamp => Sys2Proof.Machine.execValue trunk bytes stamp s
  | .ack trunk bytes stamp => Sys2Proof.Machine.execAck trunk bytes stamp s
  | .diag trunk bytes stamp => Sys2Proof.Machine.execDiag trunk bytes stamp s
  | .beacon trunk bytes stamp => Sys2Proof.Machine.execBeacon trunk bytes stamp s
  | .command trunk addr => Sys2Proof.Machine.execCommand trunk addr s
  | .ackWaitExpiry trunk addr => Sys2Proof.Machine.execAckWaitExpiry trunk addr s
  | .silentHello trunk addr => Sys2Proof.Machine.execSilentHello trunk addr s
  | .scanSlotEnd trunk overrun => Sys2Proof.Machine.execScanSlotEnd trunk overrun s
  | .heartbeat cluster seq stamp => Sys2Proof.Machine.execHeartbeat cluster seq stamp s
  | .heartbeatMiss cluster => Sys2Proof.Machine.execHeartbeatMiss cluster s
  | .refreshLate => Sys2Proof.Machine.execRefreshLate s
  | .belayStartWaitEnd => Sys2Proof.Machine.execBelayStartWaitEnd s
  | .ropeLinkFrame frame => Sys2Proof.Machine.execRopeLinkFrame frame s
  | .ropeLinkSilent => Sys2Proof.Machine.execRopeLinkSilent s
  | .mirrorInterval => Sys2Proof.Machine.execMirrorInterval s
  | .witnessTimeout => Sys2Proof.Machine.execWitnessTimeout s
  | .pairSearchTimeout => Sys2Proof.Machine.execPairSearchTimeout s
  | .scrub unit double => Sys2Proof.Machine.execScrub unit double s
  | .selfTestComplete unit result => Sys2Proof.Machine.execSelfTestComplete unit result s
  | .selfTestTimeout unit => Sys2Proof.Machine.execSelfTestTimeout unit s
  | .hifVersionsHostWrite v => Sys2Proof.Machine.execHifVersionsHostWrite v s
  | .hifEnable v => Sys2Proof.Machine.execHifEnable v s
  | .hifDisable v => Sys2Proof.Machine.execHifDisable v s
  | .hifResetRequest v => Sys2Proof.Machine.execHifResetRequest v s
  | .hostInterfaceReset cause => Sys2Proof.Machine.execHostInterfaceReset cause s
  | .ringEnWrite cq n v => Sys2Proof.Machine.execRingEnWrite cq n v s
  | .windowEnWrite n v => Sys2Proof.Machine.execWindowEnWrite n v s
  | .sluiceClose => Sys2Proof.Machine.execSluiceClose s
  | .sluiceOpen => Sys2Proof.Machine.execSluiceOpen s
  | .bar0BadAccess write => Sys2Proof.Machine.execBar0BadAccess write s
  | .registerWrite space addr v path => Sys2Proof.Machine.execRegisterWrite space addr v path s
  | .doorbellPoll stores => Sys2Proof.Machine.execDoorbellPoll stores s
  | .authLockoutEnd => Sys2Proof.Machine.execAuthLockoutEnd s
  | .statusPageHeartbeat => Sys2Proof.Machine.execStatusPageHeartbeat s
  | .cqCoalesceTimeout cq => Sys2Proof.Machine.execCqCoalesceTimeout cq s
  | .fenceComplete sq => Sys2Proof.Machine.execFenceComplete sq s
  | .nop c => Sys2Proof.Machine.execNop c s
  | .negotiate c => Sys2Proof.Machine.execNegotiate c s
  | .quench c => Sys2Proof.Machine.execQuench c s
  | .unquench c => Sys2Proof.Machine.execUnquench c s
  | .suspend c => Sys2Proof.Machine.execSuspend c s
  | .resume c => Sys2Proof.Machine.execResume c s
  | .cancel c => Sys2Proof.Machine.execCancel c s
  | .opStatus c => Sys2Proof.Machine.execOpStatus c s
  | .fence c => Sys2Proof.Machine.execFence c s
  | .pointDefine c => Sys2Proof.Machine.execPointDefine c s
  | .pointRead c => Sys2Proof.Machine.execPointRead c s
  | .pointWrite c => Sys2Proof.Machine.execPointWrite c s
  | .pointRelinquish c => Sys2Proof.Machine.execPointRelinquish c s
  | .pointReadMany c => Sys2Proof.Machine.execPointReadMany c s
  | .pointSubscribe c => Sys2Proof.Machine.execPointSubscribe c s
  | .pointUnsubscribe c => Sys2Proof.Machine.execPointUnsubscribe c s
  | .pointLimits c => Sys2Proof.Machine.execPointLimits c s
  | .pointImport c => Sys2Proof.Machine.execPointImport c s
  | .pointExport c => Sys2Proof.Machine.execPointExport c s
  | .trendDefine c => Sys2Proof.Machine.execTrendDefine c s
  | .trendRead c => Sys2Proof.Machine.execTrendRead c s
  | .trendExport c => Sys2Proof.Machine.execTrendExport c s
  | .loopLoad c => Sys2Proof.Machine.execLoopLoad c s
  | .loopStart c => Sys2Proof.Machine.execLoopStart c s
  | .loopStop c => Sys2Proof.Machine.execLoopStop c s
  | .loopReadState c => Sys2Proof.Machine.execLoopReadState c s
  | .loopTune c => Sys2Proof.Machine.execLoopTune c s
  | .loopSwap c => Sys2Proof.Machine.execLoopSwap c s
  | .zoneDefine c => Sys2Proof.Machine.execZoneDefine c s
  | .zoneRead c => Sys2Proof.Machine.execZoneRead c s
  | .zoneNeighbours c => Sys2Proof.Machine.execZoneNeighbours c s
  | .zoneWeather c => Sys2Proof.Machine.execZoneWeather c s
  | .zoneForecast c => Sys2Proof.Machine.execZoneForecast c s
  | .zoneFit c => Sys2Proof.Machine.execZoneFit c s
  | .rtcGet c => Sys2Proof.Machine.execRtcGet c s
  | .rtcSet c => Sys2Proof.Machine.execRtcSet c s
  | .rtcTrim c => Sys2Proof.Machine.execRtcTrim c s
  | .schedLoad c => Sys2Proof.Machine.execSchedLoad c s
  | .schedRead c => Sys2Proof.Machine.execSchedRead c s
  | .calLoad c => Sys2Proof.Machine.execCalLoad c s
  | .localtimeLoad c => Sys2Proof.Machine.execLocaltimeLoad c s
  | .angleEventSet c => Sys2Proof.Machine.execAngleEventSet c s
  | .ioConfig c => Sys2Proof.Machine.execIoConfig c s
  | .ioReadNow c => Sys2Proof.Machine.execIoReadNow c s
  | .adcCal c => Sys2Proof.Machine.execAdcCal c s
  | .coilCmd c => Sys2Proof.Machine.execCoilCmd c s
  | .coilDiag c => Sys2Proof.Machine.execCoilDiag c s
  | .aoSet c => Sys2Proof.Machine.execAoSet c s
  | .tgSet c => Sys2Proof.Machine.execTgSet c s
  | .fanSet c => Sys2Proof.Machine.execFanSet c s
  | .portOpen c => Sys2Proof.Machine.execPortOpen c s
  | .portClose c => Sys2Proof.Machine.execPortClose c s
  | .portSend c => Sys2Proof.Machine.execPortSend c s
  | .portQuench c => Sys2Proof.Machine.execPortQuench c s
  | .portStats c => Sys2Proof.Machine.execPortStats c s
  | .kwelaScan c => Sys2Proof.Machine.execKwelaScan c s
  | .nvmRead c => Sys2Proof.Machine.execNvmRead c s
  | .nvmWrite c => Sys2Proof.Machine.execNvmWrite c s
  | .nvmCompact c => Sys2Proof.Machine.execNvmCompact c s
  | .nvmCounterRead c => Sys2Proof.Machine.execNvmCounterRead c s
  | .nvmCounterInc c => Sys2Proof.Machine.execNvmCounterInc c s
  | .regRead c => Sys2Proof.Machine.execRegRead c s
  | .regWrite c => Sys2Proof.Machine.execRegWrite c s
  | .selfTest c => Sys2Proof.Machine.execSelfTest c s
  | .logRead c => Sys2Proof.Machine.execLogRead c s
  | .healthRead c => Sys2Proof.Machine.execHealthRead c s
  | .claimRead c => Sys2Proof.Machine.execClaimRead c s
  | .memplan c => Sys2Proof.Machine.execMemplan c s
  | .pairConfig c => Sys2Proof.Machine.execPairConfig c s
  | .sessionOpen c => Sys2Proof.Machine.execSessionOpen c s
  | .sessionClose c => Sys2Proof.Machine.execSessionClose c s
  | .keyEnroll c => Sys2Proof.Machine.execKeyEnroll c s
  | .envelopeSet c => Sys2Proof.Machine.execEnvelopeSet c s
  | .attest c => Sys2Proof.Machine.execAttest c s
  | .imageStage c => Sys2Proof.Machine.execImageStage c s
  | .imageActivate c => Sys2Proof.Machine.execImageActivate c s
  | .longopCheckpoint slot => Sys2Proof.Machine.execLongopCheckpoint slot s
  | .progressEvent slot => Sys2Proof.Machine.execProgressEvent slot s
  | .sessionIdleExpiry slot => Sys2Proof.Machine.execSessionIdleExpiry slot s
  | .trialConfirmation => Sys2Proof.Machine.execTrialConfirmation s
  | .boot b => Sys2Proof.Machine.execBoot b s
  | .housekeepingRound temps rails rtcStopped => Sys2Proof.Machine.execHousekeepingRound temps rails rtcStopped s
  | .throttleFall => Sys2Proof.Machine.execThrottleFall s
  | .throttleHoldEnd => Sys2Proof.Machine.execThrottleHoldEnd s
  | .railOut rail => Sys2Proof.Machine.execRailOut rail s
  | .sensorFailed sensor => Sys2Proof.Machine.execSensorFailed sensor s
  | .tdSuspect => Sys2Proof.Machine.execTdSuspect s
  | .watchdog => Sys2Proof.Machine.execWatchdog s
  | .protocolCoreSilent core => Sys2Proof.Machine.execProtocolCoreSilent core s
  | .hostAbsent => Sys2Proof.Machine.execHostAbsent s
  | .logFlush => Sys2Proof.Machine.execLogFlush s
  | .pfiAssert => Sys2Proof.Machine.execPfiAssert s
  | .pfiDeassert => Sys2Proof.Machine.execPfiDeassert s
  | .pfwClear => Sys2Proof.Machine.execPfwClear s
  | .thermalShutdown programDone => Sys2Proof.Machine.execThermalShutdown programDone s
  | .thermalRestart => Sys2Proof.Machine.execThermalRestart s
  | .por fieldFell => Sys2Proof.Machine.execPor fieldFell s
  | .resetN rises => Sys2Proof.Machine.execResetN rises s
  | .vddFieldLoss => Sys2Proof.Machine.execVddFieldLoss s
  | .nvmProgramEnd => Sys2Proof.Machine.execNvmProgramEnd s
  | .nvmEraseEnd => Sys2Proof.Machine.execNvmEraseEnd s
  | .nvmScanEnd found torn => Sys2Proof.Machine.execNvmScanEnd found torn s
  | .compactionHoldoffEnd => Sys2Proof.Machine.execCompactionHoldoffEnd s
  | .rawRead v => Sys2Proof.Machine.execRawRead v s
  | .rawProgram v => Sys2Proof.Machine.execRawProgram v s
  | .rawErase v => Sys2Proof.Machine.execRawErase v s
  | .towpathId => Sys2Proof.Machine.execTowpathId s
  | .towpathHealth => Sys2Proof.Machine.execTowpathHealth s
  | .towpathTemp => Sys2Proof.Machine.execTowpathTemp s
  | .towpathRails => Sys2Proof.Machine.execTowpathRails s
  | .towpathMains => Sys2Proof.Machine.execTowpathMains s
  | .towpathRtc => Sys2Proof.Machine.execTowpathRtc s
  | .towpathLog seq => Sys2Proof.Machine.execTowpathLog seq s
  | .towpathClaim => Sys2Proof.Machine.execTowpathClaim s
  | .towpathPoint id => Sys2Proof.Machine.execTowpathPoint id s
  | .towpathUi n => Sys2Proof.Machine.execTowpathUi n s
  | .towpathUiNow n => Sys2Proof.Machine.execTowpathUiNow n s
  | .towpathCounters => Sys2Proof.Machine.execTowpathCounters s
  | .towpathResetCause => Sys2Proof.Machine.execTowpathResetCause s
  | .towpathCoilDiag ch => Sys2Proof.Machine.execTowpathCoilDiag ch s
  | .towpathAtb src => Sys2Proof.Machine.execTowpathAtb src s
  | .towpathAtbOff => Sys2Proof.Machine.execTowpathAtbOff s
  | .towpathBaud rate => Sys2Proof.Machine.execTowpathBaud rate s
  | .baudRevert => Sys2Proof.Machine.execBaudRevert s
  | .towpathAuth => Sys2Proof.Machine.execTowpathAuth s
  | .towpathAuth2 => Sys2Proof.Machine.execTowpathAuth2 s
  | .towpathAuthToken token => Sys2Proof.Machine.execTowpathAuthToken token s
  | .towpathAuthOff => Sys2Proof.Machine.execTowpathAuthOff s
  | .towpathAuthEnroll => Sys2Proof.Machine.execTowpathAuthEnroll s
  | .towpathAuthConfirm code => Sys2Proof.Machine.execTowpathAuthConfirm code s
  | .enrollTimeout => Sys2Proof.Machine.execEnrollTimeout s
  | .towpathIdleTimeout => Sys2Proof.Machine.execTowpathIdleTimeout s
  | .towpathAo n volts => Sys2Proof.Machine.execTowpathAo n volts s
  | .towpathCoilTest ch ma => Sys2Proof.Machine.execTowpathCoilTest ch ma s
  | .towpathTg n ac => Sys2Proof.Machine.execTowpathTg n ac s
  | .towpathFan n pct => Sys2Proof.Machine.execTowpathFan n pct s
  | .towpathRelease out => Sys2Proof.Machine.execTowpathRelease out s
  | .towpathSelftest unit => Sys2Proof.Machine.execTowpathSelftest unit s
  | .towpathPeek addr half => Sys2Proof.Machine.execTowpathPeek addr half s
  | .towpathPoke addr v mask => Sys2Proof.Machine.execTowpathPoke addr v mask s
  | .fieldDiePowerUp => Sys2Proof.Machine.execFieldDiePowerUp s
  | .vdrvRecovered => Sys2Proof.Machine.execVdrvRecovered s
  | .coreRailLoss rail => Sys2Proof.Machine.execCoreRailLoss rail s
  | .pcieLinkUp => Sys2Proof.Machine.execPcieLinkUp s
  | .portLinkChange port up speed => Sys2Proof.Machine.execPortLinkChange port up speed s
  | .ropeSignalChange sd => Sys2Proof.Machine.execRopeSignalChange sd s
  | .relayCoilStart entry => Sys2Proof.Machine.execRelayCoilStart entry s
  | .sluiceDrained => Sys2Proof.Machine.execSluiceDrained s
  | .authBlockEnd => Sys2Proof.Machine.execAuthBlockEnd s
  | .challengeExpiry => Sys2Proof.Machine.execChallengeExpiry s
  | .towpathEnrollKeyLine half => Sys2Proof.Machine.execTowpathEnrollKeyLine half s
  | .towpathUnknownLine why => Sys2Proof.Machine.execTowpathUnknownLine why s
  | .watchdogResetDelay => Sys2Proof.Machine.execWatchdogResetDelay s

end Sys2Proof.Machine
end

