-- ==== Sys2Proof/Machine/Idle.lean ====
section
/-! DEFINITION. Idle: what a step does when no command waits. -/
namespace Sys2Proof.Machine

/-- An occurrence at the present count, or one before it, waits for its dispatch. -/
def dispatchDue (d : Dev) : Bool := (nextDue (fieldNow d) true d).isSome

/-- What is due at the present count is dispatched; with nothing due one angle count passes, up to the end of the cycle,
where CYCLE_BOUNDARY takes over; none passes while the 25 MHz reference is stopped (R19, R30, R437). Log entries 2 and 11. -/
def tickAngle (d : Dev) : Dev :=
  if !d.tb.refRuns then d
  else if dispatchDue d then passTo (fieldNow d) true d
  else if d.tb.angle.toNat < 65535 then { d with tb := { passCounts 1 d.tb with angle := d.tb.angle + 1#16 } }
  else d

def idle (s : State) : Host.Outcome State Fault Refusal := run tickAngle s

end Sys2Proof.Machine
end

