-- ==== Sys2Proof/Machine/Step.lean ====
section
/-! DEFINITION. Step: one command at a time, from the front of the queue. -/
namespace Sys2Proof.Machine

/-- On an empty queue one angle count passes (R19); otherwise the front command runs with the queue's rest. -/
def step (s : State) : Host.Outcome State Fault Refusal :=
  match s.pending with
  | [] => Sys2Proof.Machine.idle s
  | c :: rest => exec c { s with pending := rest }

/-- `s` with the command a table word spells at the front of its queue; unchanged where it spells none. -/
def State.withFetchWord (s : State) (nbits w : Nat) : State :=
  match decodeTableWord nbits w with
  | some c => { s with pending := c :: s.pending }
  | none => s

end Sys2Proof.Machine
end

