-- ==== Sys2Proof/WellFormed.lean ====
section
/-! DEFINITION. WellFormed: the operands a command can carry at all: field widths that the types of Syntax leave
open. A term outside these bounds names nothing the manual's wires, rings or consoles can bring. -/
namespace Sys2Proof

/-- A 23-bit point ID (R37). -/
def pointIdOk (id : Nat) : Bool := decide (id < 8388608)

/-- A loop reference: fast slot below 4,096, fabric ID below 2^19 (R87). -/
def LoopRef.ok (r : LoopRef) : Bool := decide (r.idx < if r.fast then 4096 else 524288)

/-- Descriptor fields at their widths, and a buffer of BUF_LEN bytes (R344). -/
def HostCmd.ok (c : HostCmd) : Bool :=
  decide (c.fmt < 256) && decide (c.authSlot < 256) && decide (c.authSeq < 16777216) &&
  decide (c.authTag.length = 12) && decide (c.bufAddr < 18446744073709551616) &&
  decide (c.bufLen < 4294967296) && decide (c.buf.length ≤ c.bufLen)

/-- A converter word is a signed 24-bit number after the filter; a raw one may pass that by the gain's margin (R198). -/
def rawOk (raw : Int) : Bool := decide (-33554432 ≤ raw) && decide (raw < 33554432)

/-- A console token is 40 bits (R393). -/
def tokenOk (t : Nat) : Bool := decide (t < 1099511627776)

/-- A BACnet write names a level 1–16 and a device instance of 22 bits (R42, R58). -/
def BacReq.ok : BacReq → Bool
  | .writeValue _ _ _ prio dev => decide (1 ≤ prio) && decide (prio ≤ 16) && decide (dev < 4194304)
  | .writeOutOfService _ _ _ dev => decide (dev < 4194304)
  | _ => true

/-- A Modbus request at its field widths (R262). -/
def ModReq.ok (r : ModReq) : Bool :=
  decide (r.unit < 256) && decide (r.fc < 256) && decide (r.addr < 65536) && decide (r.count < 65536)

/-- Well-formed commands. -/
def Instr.wf : Instr → Bool
  | .minTimeLockExpiry id => pointIdOk id
  | .staleTimeout id => pointIdOk id
  | .alarmDelayExpiry id => pointIdOk id
  | .trendPeriodicSample log => decide (log < 1048576)
  | .fabricLoopTick l => decide (l < 524288)
  | .loopEvaluationStart r _ => r.ok
  | .loopEvaluationEnd r _ _ => r.ok
  | .peerResultArrival r _ => r.ok
  | .peerResultTimeout r _ => r.ok
  | .loopOverrun r => r.ok
  | .zoneStep z _ => decide (z < 262144)
  | .zoneSkipped z => decide (z < 262144)
  | .sincWord _ raw _ _ => rawOk raw
  | .urgentConversionEnd _ raw _ _ => rawOk raw
  | .bacnetRequest _ r => r.ok
  | .modbusServerRequest _ r => r.ok
  | .modbusPollDue e => decide (e < 1048576)
  | .modbusPollReply e regs _ => decide (e < 1048576) && decide (regs.length ≤ 2)
  | .modbusResponseTimeout e => decide (e < 1048576)
  | .command _ addr => decide (addr < 65536)
  | .ackWaitExpiry _ addr => decide (addr < 65536)
  | .silentHello _ addr => decide (addr < 65536)
  | .towpathAuthToken t => tokenOk t
  | .towpathAuthConfirm c => decide (c < 16777216)
  | .towpathEnrollKeyLine h => decide (h.length = 16)
  | .housekeepingRound ts rs _ => decide (ts.length = 17) && decide (rs.length = 12)
  | .nop c | .negotiate c | .quench c | .unquench c | .suspend c | .resume c | .cancel c | .opStatus c
  | .fence c | .pointDefine c | .pointRead c | .pointWrite c | .pointRelinquish c | .pointReadMany c
  | .pointSubscribe c | .pointUnsubscribe c | .pointLimits c | .pointImport c | .pointExport c
  | .trendDefine c | .trendRead c | .trendExport c | .loopLoad c | .loopStart c | .loopStop c
  | .loopReadState c | .loopTune c | .loopSwap c | .zoneDefine c | .zoneRead c | .zoneNeighbours c
  | .zoneWeather c | .zoneForecast c | .zoneFit c | .rtcGet c | .rtcSet c | .rtcTrim c | .schedLoad c
  | .schedRead c | .calLoad c | .localtimeLoad c | .angleEventSet c | .ioConfig c | .ioReadNow c
  | .adcCal c | .coilCmd c | .coilDiag c | .aoSet c | .tgSet c | .fanSet c | .portOpen c | .portClose c
  | .portSend c | .portQuench c | .portStats c | .kwelaScan c | .nvmRead c | .nvmWrite c | .nvmCompact c
  | .nvmCounterRead c | .nvmCounterInc c | .regRead c | .regWrite c | .selfTest c | .logRead c
  | .healthRead c | .claimRead c | .memplan c | .pairConfig c | .sessionOpen c | .sessionClose c
  | .keyEnroll c | .envelopeSet c | .attest c | .imageStage c | .imageActivate c => c.ok
  | _ => true

end Sys2Proof
end

