-- ==== Sys2Proof/Safety.lean ====
section
/-! DEFINITION. Safety: the words in which claims are made: a run, a queue of well-formed commands, a host command that
is ready to run, its answer. -/
namespace Sys2Proof.Machine

/-- The device as a command meets it: nothing yet in the outbox. -/
def fresh (s : State) : Dev := { s.dev with outbox := [] }

/-- The state after a command whose effect on the device gives `d`: its queue is as it was. -/
def after (s : State) (d : Dev) : State := { s with dev := d }

/-- The device with everything blanked that a delivery of waiting events, or a record read for one, can change. -/
def calm (d : Dev) : Dev :=
  { d with
    tb := { d.tb with waiting := [] }
    loops := { d.loops with fabric := [] }
    zones := { d.zones with zones := [] }
    clk := { d.clk with waiting := [] }
    inp := {}
    pair := { d.pair with dirtyPoints := [] }
    integ := { d.integ with tests := [] }
    hif := { d.hif with mem := [], cqs := [], msixPend := 0 }
    ports := { d.ports with ports := Tab.mapVals d.ports.ports fun _ x => { x with held := false } }
    lop := { d.lop with slots := [] }
    pe := { d.pe with recs := [], subs := [], trends := [], alarms := [], alarmSeq := 0, lostTotal := 0, lostSince := []
                      order := 0, checkFails := 0, testing := false }
    outbox := [] }

/-- A host command that runs now: the core die runs, nothing turns the command away, its descriptor has been fetched and
has passed its checks (R345), its ring does not hold it (R347), and the point engine's pipelines agree (R64). -/
def Ready (op : Nat) (c : HostCmd) (s : State) : Prop :=
  coreRuns s.dev = true ∧ gate op s.dev = none ∧ s.dev.pe.upset = none ∧
  ∃ f, s.dev.hif.fetched.find? (fun f => sameCmd op c f && !f.begun && f.verdict.isNone) = some f ∧
    ringHeld op f s.dev = false

/-- The engine takes an operation of the device itself on a point at once: a pipeline is in service and not tested, both
agree (R64, R65), and no operation on the point waits (R54). -/
def engineReady (s : State) (id : Nat) : Prop :=
  pipesServe s.dev = true ∧ s.dev.pe.upset = none ∧ ∀ o ∈ s.dev.pe.queue, o.id ≠ id

/-- A host write at level `p` of the output point `id` reaches stage `k` at once and at that level (R58, R222, R288): the
point's check verifies, nothing guards or holds it back, no minimum time runs, no lower-numbered level is set, no operation
or delivery of it waits; the stage is NORMAL under an owner, without an envelope. -/
def WriteReady (id k p : Nat) (r : Rec) (s : State) : Prop :=
  recOf s.dev id = some r ∧ checkOk id r = true ∧ commandable r = true ∧ guardedOf r = false ∧ outOfService r = false ∧
  hasMinTimes (prioOf s.dev r) = false ∧ 1 ≤ p ∧ p ≤ 16 ∧ p ≠ 6 ∧
  (∀ m, 1 ≤ m → m < p → levelValue (prioOf s.dev r) m = none) ∧
  (∀ o ∈ s.dev.pe.queue, o.id ≠ id) ∧ (∀ x ∈ s.dev.pe.deliveries, x.id ≠ id) ∧
  stageState s.dev k = 0 ∧ s.dev.belay.owner ≠ 0#16 ∧ envelopeOf s.dev id = none

/-- No occurrence of an angle event is due before a stamp of the core die, or `on` it as well: an arrival or an expiry there
comes without a dispatch (R35, R36). -/
def NoneDue (on : Bool) (t : Stamp) (s : State) : Prop := nextDue (fieldStamp s.dev t) on s.dev = none

/-- The state a host command leaves that has results: what its body has made of the device, with what waits delivered
(R349), and then its completion posted (R346). -/
def replied (op : Nat) (c : HostCmd) (x : Done) (d : Dev) (s : State) : State := after s (finish op c x d)

/-- The state a host command leaves that has begun and completes later. -/
def awaiting (op : Nat) (c : HostCmd) (d : Dev) (s : State) : State := after s (markBegun op c (settle d))

/-- `k` steps, none of which may stop. -/
def steps : Nat → State → Option State
  | 0, s => some s
  | k + 1, s => match step s with
    | .next t => steps k t
    | _ => none

/-- A run of `k` steps is safe when no step of it faults or refuses. -/
def SafeRun (k : Nat) (s : State) : Prop := (steps k s).isSome = true

/-- Every waiting command is well-formed. -/
def queueOk (s : State) : Prop := ∀ c ∈ s.pending, c.wf = true

end Sys2Proof.Machine
end

