-- ==== Sys2Proof/Certificates/Slice0/Obligations.lean ====
section
/-! DEFINITION. Obligations: the statements about the block, for the provers. `fresh s` is the device of `s` with an empty
outbox, `after s d` the state `s` with the device `d` and its queue untouched, `settle` the delivery of what waits (R73,
R74), `replied` and `awaiting` the states that a host command with and without results leaves (R346, R349). A clause that
gives the whole next state is its frame too. -/
open Sys2Proof Sys2Proof.Machine

/-! ## The queue -/

/-- A step runs the command at the front of the queue on the state with the queue's rest. -/
def Obligations.StepRunsFront : Prop :=
  ∀ (c : Instr) (rest : List Instr) (s : State), s.pending = c :: rest → step s = exec c { s with pending := rest }

/-- No command adds to the queue, takes from it or reorders it: exec always answers a next state, with the queue it was
given. -/
def Obligations.CommandsLeaveQueue : Prop :=
  ∀ (c : Instr) (s : State), ∃ t, exec c s = .next t ∧ t.pending = s.pending

/-- First in, first out: from every state, whatever its device, a run as long as any part of the queue is safe and has
taken exactly that many commands from the queue's front. -/
def Obligations.QueueRunsInOrder : Prop :=
  ∀ (k : Nat) (s : State), k ≤ s.pending.length → SafeRun k s ∧ ∃ t, steps k s = some t ∧ t.pending = s.pending.drop k

/-- Every step keeps a queue of well-formed commands well-formed. -/
def Obligations.StepKeepsQueueOk : Prop := ∀ s t : State, queueOk s → step s = .next t → queueOk t


/-! ## Host memory -/

/-- What the device writes into host memory it reads back, every other byte reads as before, and the canonical form
stays. -/
def Obligations.HostMemoryReadsBack : Prop :=
  ∀ (m : Tab Byte) (a : Nat) (bs : List Byte), memWf m = true →
    memReadList (memWriteList m a bs) a bs.length = bs ∧
    (∀ b, b < a ∨ a + bs.length ≤ b → memRead (memWriteList m a bs) b = memRead m b) ∧
    memWf (memWriteList m a bs) = true

/-! ## Host interface set-up -/

/-- HIF_VERSIONS_HOST_WRITE, HIF_ENABLE, HIF_DISABLE, HOST_INTERFACE_RESET, PCIE_LINK_UP (parts of R323, R327, R328, R330).
The host's revisions are written while the interface is off; while it runs the write sets WRERR. ENABLE with a set-up that
passes every check starts the interface with HIF_ERR 0 and every enabled submission ring at index 0 under the agreed
revision, sessions and port maps as they were; with one that fails it the error and its item are recorded and the interface
stays off. ENABLE = 0 stops a running interface and keeps windows and revisions; it changes nothing where it is off. A
host-interface reset puts the set-up registers at their Reset values and sets HOST_ABSENT; every cause but FLR takes the link
down. Both close every session and mark what was fetched, whose completions are discarded; points and loops go on as they
were, and after a reset zones, schedules and outputs too. -/
def Obligations.HostInterfaceLife : Prop :=
  (∀ (v : Word) (s : State),
     (s.dev.hif.enabled = false →
       exec (.hifVersionsHostWrite v) s = .next (after s { fresh s with hif := { s.dev.hif with versHost := v &&& 6#32 } })) ∧
     (s.dev.hif.enabled = true →
       exec (.hifVersionsHostWrite v) s = .next (after s { fresh s with hif := { s.dev.hif with wrErr := true } })) ∧
     (s.dev.hif.enabled = false → setupError s.dev = none →
       ∃ t, exec (.hifEnable v) s = .next t ∧ t.dev.hif.enabled = true ∧ t.dev.hif.err = 0 ∧ t.dev.hif.errIndex = 0 ∧
         (∀ n, n < 32 → ringOn (sqOf s.dev n) = true →
           (sqOf t.dev n).head = 0 ∧ (sqOf t.dev n).tail = 0 ∧ (sqOf t.dev n).rev = agreed s.dev) ∧
         t.dev.sec = s.dev.sec ∧ t.dev.ports.map = s.dev.ports.map ∧
         ∀ p, { portOf t.dev p with held := (portOf s.dev p).held } = portOf s.dev p) ∧
     (∀ e i, s.dev.hif.enabled = false → setupError s.dev = some (e, i) →
       exec (.hifEnable v) s = .next (after s { fresh s with hif := { s.dev.hif with err := e, errIndex := i } })) ∧
     (s.dev.hif.enabled = true →
       ∃ t, exec (.hifDisable v) s = .next t ∧ t.dev.hif.enabled = false ∧ t.dev.sec.sessions = [] ∧
         t.dev.hif.wins = s.dev.hif.wins ∧ t.dev.hif.versHost = s.dev.hif.versHost ∧ t.dev.pe = s.dev.pe ∧
         t.dev.loops = s.dev.loops ∧ ∀ f ∈ t.dev.hif.fetched, f.orphan = true) ∧
     (s.dev.hif.enabled = false → exec (.hifDisable v) s = .next (after s (fresh s)))) ∧
  (∀ s : State,
     (∀ cause, ∃ t, exec (.hostInterfaceReset cause) s = .next t ∧ t.dev.hif.enabled = false ∧ t.dev.hif.versHost = 0#32 ∧
       t.dev.hif.sqs = [] ∧ t.dev.hif.cqs = [] ∧ t.dev.hif.wins = [] ∧ t.dev.hif.sluice = false ∧
       t.dev.hif.closes = 0 ∧ t.dev.hif.dbPoll = 10#32 ∧ t.dev.hif.spCtrl = 10#32 ∧
       t.dev.sec.sessions = [] ∧ (∀ f ∈ t.dev.hif.fetched, f.orphan = true) ∧ t.dev.lk.hostAbsent = true ∧
       t.dev.pe = s.dev.pe ∧ t.dev.loops = s.dev.loops ∧ t.dev.zones = s.dev.zones ∧ t.dev.sched = s.dev.sched ∧
       t.dev.out = s.dev.out ∧ t.dev.coil = s.dev.coil ∧
       t.dev.hif.linkUp = (if cause = .flr then s.dev.hif.linkUp else false)) ∧
     exec .pcieLinkUp s = .next (after s { fresh s with hif := { s.dev.hif with linkUp := true } }))


/-- RING_EN_WRITE, WINDOW_EN_WRITE, SLUICE_CLOSE, SLUICE_OPEN, SLUICE_DRAINED, BAR0_BAD_ACCESS (parts of R322, R328, R332).
While the interface is off a ring or window takes the bits written; while it runs, a write of EN = 1 to an enabled ring or
window is ignored and sets WRERR. The first close of the Sluice counts, a second changes nothing, and a closed Sluice leaves
no ring room for an event; the opening delivers what waits. A bad write sets WRERR, a bad read answers all ones. -/
def Obligations.SetupWrites : Prop :=
  ∀ (cq : Bool) (n : Fin 32) (w : Fin 64) (v : Word) (s : State),
    (s.dev.hif.enabled = false →
      exec (.ringEnWrite cq n v) s = .next (after s
        (putRing cq n.val { ringOf s.dev cq n.val with
          cfg := rwMask (ringOf s.dev cq n.val).cfg v (if cq then 0xC000001F#32 else 0x8000001F#32) } (fresh s)))) ∧
    (s.dev.hif.enabled = true → ringOn (ringOf s.dev cq n.val) = true → bit v 31 = true →
      exec (.ringEnWrite cq n v) s = .next (after s
        (settle { fresh s with hif := { s.dev.hif with wrErr := true } }))) ∧
    (s.dev.hif.enabled = false →
      exec (.windowEnWrite w v) s = .next (after s (setWin w.val { winOf s.dev w.val with ctrl := v &&& 7#32 } (fresh s)))) ∧
    (s.dev.hif.enabled = true → bit (winOf s.dev w.val).ctrl 0 = true → bit v 0 = true →
      exec (.windowEnWrite w v) s = .next (after s { fresh s with hif := { s.dev.hif with wrErr := true } })) ∧
    (s.dev.hif.sluice = false →
      exec .sluiceClose s = .next (after s { fresh s with hif := { s.dev.hif with
        sluice := true, drained := false, closes := min 65535 (s.dev.hif.closes + 1) } })) ∧
    (s.dev.hif.sluice = true → exec .sluiceClose s = .next (after s (fresh s))) ∧
    exec .sluiceOpen s = .next (after s
      (settle { fresh s with hif := { s.dev.hif with sluice := false, drained := true } })) ∧
    exec .sluiceDrained s = .next (after s { fresh s with hif := { s.dev.hif with drained := true } }) ∧
    exec (.bar0BadAccess true) s = .next (after s { fresh s with hif := { s.dev.hif with wrErr := true } }) ∧
    exec (.bar0BadAccess false) s = .next (after s { fresh s with outbox := [.readAll1] }) ∧
    (∀ n, s.dev.hif.sluice = true → eventRoom s.dev n = false)

/-- DOORBELL_POLL, STATUS_PAGE_HEARTBEAT, CQ_COALESCE_TIMEOUT, AUTH_LOCKOUT_END (parts of R325, R333–R337, R343, R352, R380).
A poll brings the host's stores into its memory. While the core die and the interface run and the doorbell page is readable,
it samples HOST_HB and takes every ring's doorbell as seen: a tail or head that is acceptable becomes the ring's, another one
leaves it. A status page write raises HEARTBEAT by one and writes it at 0x104, under revision 2 at 0x1F8 as well with the
CRC-32C of the page behind it. At the coalescing time a ring with interrupts on and entries not yet signalled is signalled,
or where the MSI-X table masks its vector the pending bit is set. The lockout ends. -/
def Obligations.PagesAndCoalescing : Prop :=
  ∀ s : State,
    (∀ stores, s.dev.hif.enabled = false →
      exec (.doorbellPoll stores) s = .next (after s { fresh s with hif := { s.dev.hif with
        mem := stores.foldl (fun m x => memWriteList m x.1 x.2) s.dev.hif.mem } })) ∧
    (∀ stores, coreRuns s.dev = true → s.dev.hif.enabled = true → canRead s.dev (dbAddr s.dev) 512 = true →
      let page := memReadList (stores.foldl (fun m x => memWriteList m x.1 x.2) s.dev.hif.mem) (dbAddr s.dev) 512
      ∃ t, exec (.doorbellPoll stores) s = .next t ∧ t.dev.hif.hostHb = wordAt page 4 ∧ t.dev.pe = s.dev.pe ∧
        t.dev.loops = s.dev.loops ∧ ∀ n, n < 32 →
          (ringOn (sqOf s.dev n) = true → wordAt page (8 * n) ≠ (sqOf s.dev n).seen →
            (sqOf t.dev n).seen = wordAt page (8 * n) ∧ (sqOf t.dev n).tail =
              if tailOk (sqOf s.dev n) (wordAt page (8 * n)) then (wordAt page (8 * n)).toNat else (sqOf s.dev n).tail) ∧
          (ringOn (cqOf s.dev n) = true → wordAt page (0x100 + 8 * n) ≠ (cqOf s.dev n).seen →
            (cqOf t.dev n).seen = wordAt page (0x100 + 8 * n) ∧ (cqOf t.dev n).head =
              if headOk (cqOf s.dev n) (wordAt page (0x100 + 8 * n)) then (wordAt page (0x100 + 8 * n)).toNat
              else (cqOf s.dev n).head)) ∧
    (coreRuns s.dev = true → s.dev.hif.enabled = true → canWrite s.dev (spAddr s.dev) 512 = true →
      memWf s.dev.hif.mem = true → ∃ t, exec .statusPageHeartbeat s = .next t ∧
        t.dev.hif.heartbeat = (s.dev.hif.heartbeat + 1) % 4294967296 ∧ t.dev.pe = s.dev.pe ∧ t.dev.sec = s.dev.sec ∧
        let page := memReadList t.dev.hif.mem (spAddr s.dev) 512
        wordAt page 0x104 = wd t.dev.hif.heartbeat ∧
        (agreed s.dev = 2 → wordAt page 0x1F8 = wd t.dev.hif.heartbeat ∧
          wordAt page 0x1FC = crc32c (page.take 508))) ∧
    (∀ n : Fin 32, bit (cqOf s.dev n.val).cfg 30 = true → (cqOf s.dev n.val).counted ≠ 0 →
      fld (cqOf s.dev n.val).coal 31 16 ≠ 0 →
      (s.dev.hif.msixMask / 2 ^ n.val % 2 ≠ 1 → exec (.cqCoalesceTimeout n) s = .next (after s
        (setCq n.val { cqOf s.dev n.val with counted := 0 } { fresh s with outbox := [.msix n.val] }))) ∧
      (s.dev.hif.msixMask / 2 ^ n.val % 2 = 1 → exec (.cqCoalesceTimeout n) s = .next (after s
        (setCq n.val { cqOf s.dev n.val with counted := 0 }
          { fresh s with hif := { s.dev.hif with msixPend := s.dev.hif.msixPend ||| 2 ^ n.val } })))) ∧
    exec .authLockoutEnd s = .next (after s { fresh s with sec := { s.dev.sec with lockout := false } })

/-- NOP, NEGOTIATE, QUENCH, UNQUENCH, FENCE, FENCE_COMPLETE (parts of R323, R347, R348, R353, R360): NOP answers OK. NEGOTIATE
sets the ring's revision to one that both offer and answers it; a higher one is VERSION_UNSUPPORTED, 0 or a ring above 31
BAD_FORMAT. QUENCH stops events to the rings and forwarding at the ports of its masks, UNQUENCH ends that for those it
names. FENCE completes once no command fetched before it is left, and waits until then. -/
def Obligations.ControlCommands : Prop :=
  ∀ (c : HostCmd) (s : State),
    (Ready 0x0000 c s → exec (.nop c) s = .next (replied 0x0000 c ok (fresh s) s)) ∧
    (Ready 0x0001 c s → c.target.toNat < 32 → fld c.p0 1 0 ≠ 0 → fld c.p0 1 0 ≤ agreed s.dev →
      exec (.negotiate c) s = .next (replied 0x0001 c (okWith (wd (fld c.p0 1 0)))
        (setSq c.target.toNat { sqOf s.dev c.target.toNat with rev := fld c.p0 1 0 } (fresh s)) s)) ∧
    (Ready 0x0001 c s → c.target.toNat < 32 → agreed s.dev < fld c.p0 1 0 →
      exec (.negotiate c) s = .next (replied 0x0001 c (fail 0x0103 (wd (fld c.p0 1 0))) (fresh s) s)) ∧
    (Ready 0x0001 c s → c.target.toNat < 32 → fld c.p0 1 0 = 0 →
      exec (.negotiate c) s = .next (replied 0x0001 c (badField 0x10) (fresh s) s)) ∧
    (Ready 0x0001 c s → 32 ≤ c.target.toNat →
      exec (.negotiate c) s = .next (replied 0x0001 c (badField 0x08) (fresh s) s)) ∧
    (Ready 0x0002 c s → ∃ d, exec (.quench c) s = .next (replied 0x0002 c ok d s) ∧
      d.hif.quenchedCq = s.dev.hif.quenchedCq ||| c.p0.toNat ∧ d.pe = s.dev.pe ∧
      ∀ p, p < 24 → (portOf d p).qFwd = (bit c.p1 p || (portOf s.dev p).qFwd)) ∧
    (Ready 0x0003 c s → ∃ d, exec (.unquench c) s = .next (replied 0x0003 c ok d s) ∧
      d.hif.quenchedCq = s.dev.hif.quenchedCq - (s.dev.hif.quenchedCq &&& c.p0.toNat) ∧ d.pe = s.dev.pe ∧
      ∀ p, p < 24 → (portOf d p).qFwd = (!bit c.p1 p && (portOf s.dev p).qFwd)) ∧
    (∀ f, Ready 0x0008 c s → s.dev.hif.fetched.find? (sameCmd 0x0008 c) = some f →
      exec (.fence c) s = .next (if olderThan f s.dev then awaiting 0x0008 c (fresh s) s
        else replied 0x0008 c ok (fresh s) s)) ∧
    (∀ (n : Fin 32) f, s.dev.hif.fetched.find? (fun g => g.opcode == 8 && g.begun && g.cmd.sq.val == n.val) = some f →
      exec (.fenceComplete n) s = .next (if olderThan f s.dev then after s (fresh s)
        else replied 0x0008 f.cmd ok (fresh s) s))

/-- What a completion writes while the interface and its ring are on (parts of R341, R342, R346): 32 bytes at the ring's
tail, the words of R346 with the pass in PHASE and a CRC-32C over the first 28, and the tail moves on by one entry; every
byte outside the entry reads as before, and points, sessions and log are as they were. -/
def Obligations.CompletionPosted : Prop :=
  ∀ (op : Nat) (c : HostCmd) (x : Done) (d : Dev), d.hif.enabled = true → ringOn (cqOf d c.sq.val) = true →
    memWf d.hif.mem = true →
    let r := cqOf d c.sq.val
    let at0 := ringBase r + 32 * r.tail
    let ws := [c.tag, wd (x.status % 65536 + op * 65536), x.r0, x.r1, x.r2, setBit (wd c.sq.val) 8 r.phase,
      wd (sqOf d c.sq.val).head]
    let e := postCompletion op c x d
    memReadList e.hif.mem at0 32 = wordsBytes ws ++ wordBytes (crc32c (wordsBytes ws)) ∧
    (∀ b, b < at0 ∨ at0 + 32 ≤ b → memRead e.hif.mem b = memRead d.hif.mem b) ∧
    (cqOf e c.sq.val).tail = (r.tail + 1) % depth r ∧ e.pe = d.pe ∧ e.sec = d.sec ∧ e.lk = d.lk

/-- The delivery of what waits changes only what a delivery or the reading of a record for one can change: `calm` blanks
exactly that. Nothing is delivered while the interface is off or the Sluice is closed (R332, R353). -/
def Obligations.SettleFrame : Prop :=
  ∀ d : Dev, calm (settle d) = calm d ∧
    (d.hif.enabled = false → settle d = d) ∧ (d.hif.sluice = true → settle d = d)

/-! ## Die link, timebase, angle events -/

/-- DIE_LINK_FRAME, FIELD_DIE_LINK_LOSS, CORE_DIE_LINK_LOSS, DIE_LINK_RETURN (parts of R9–R11, R213, R254). A frame whose
CRC-32C fails counts one retry; a valid one hands on the captures of the field die, if it comes from that die and the core
die does not have the link lost, and changes nothing else. Loss at the field die puts all 88 output stages in the fail-safe,
with every analog output at its fail-safe code, or 0 where it has none. Loss at the core die keeps the mains frequency last
measured, counts retries anew, logs 0x034 with D0 0 and the retries, and from then on every host command of class IO gets
HW_FAULT. A second loss on one die changes nothing. The return ends both losses, and the writes that the field die held are
no longer held. Without an owner no stage is left in the fail-safe, 0x034 with D0 1 and the retries is the last entry of the
log, and each held write stands in the engine's queue or with its writer behind a full one; with an owner every stage that is
not NORMAL gets a refresh under the owner's claim. With the link up it changes nothing. -/
def Obligations.DieLinkCommands : Prop :=
  ∀ s : State,
    (∀ b, exec (.dieLinkFrame b false) s =
      .next (after s { fresh s with link := { s.dev.link with retries := s.dev.link.retries + 1 } })) ∧
    exec (.dieLinkFrame true true) s = .next (after s (fresh s)) ∧
    (s.dev.link.coreLost = true → exec (.dieLinkFrame false true) s = .next (after s (fresh s))) ∧
    (s.dev.link.coreLost = false → ∃ t, exec (.dieLinkFrame false true) s = .next t ∧
      t = after s (forwardCaptures (fresh s)) ∧ t.dev.link = s.dev.link ∧
      ∀ c n, c < 2 → n < 64 → (captureTarget s.dev c n).isSome = true → Tab.get 0 (adcOf t.dev c).unsent n = 0) ∧
    (s.dev.link.fieldLost = true → exec .fieldDieLinkLoss s = .next (after s (fresh s))) ∧
    (s.dev.link.fieldLost = false → ∃ t, exec .fieldDieLinkLoss s = .next t ∧
      t.dev.link = { s.dev.link with fieldLost := true } ∧ (∀ k, k < 88 → stageState t.dev k = 3) ∧
      ∀ n, n < 16 → (aoOf t.dev n).code =
        if bit (aoOf s.dev n).cfg 0 then fld (aoOf s.dev n).cfg 27 16 else 0) ∧
    (s.dev.link.coreLost = true → exec .coreDieLinkLoss s = .next (after s (fresh s))) ∧
    (s.dev.link.coreLost = false → ∃ t, exec .coreDieLinkLoss s = .next t ∧
      t.dev.link = { s.dev.link with coreLost := true, retries := 0, coreHz := s.dev.tb.measured } ∧
      (∃ e, t.dev.lk.ramLog.getLast? = some e ∧ e.code = 0x034 ∧ e.d0 = 0#32 ∧ e.d1 = wd s.dev.link.retries) ∧
      (∀ op, opClass op = 5 → t.dev.pe.plan.isSome = true → gate op t.dev = some (fail 0x0500))) ∧
    ((s.dev.link.coreLost = true ∨ s.dev.link.fieldLost = true) → ∃ t, exec .dieLinkReturn s = .next t ∧
      t.dev.link = { s.dev.link with fieldLost := false, coreLost := false, retries := 0 } ∧ t.dev.pe.heldField = [] ∧
      (s.dev.belay.ownerUnit = 0 → (∀ k, k < 88 → stageState t.dev k ≠ 3) ∧
        (∃ e, t.dev.lk.ramLog.getLast? = some e ∧ e.code = 0x034 ∧ e.d0 = 1#32 ∧ e.d1 = wd s.dev.link.retries) ∧
        ∀ o ∈ s.dev.pe.heldField, o.act ≠ .stale → ∃ x ∈ t.dev.pe.queue ++ t.dev.pe.held,
          x.id = o.id ∧ x.act = o.act ∧ x.stamp = o.stamp ∧ x.source = o.source) ∧
      (s.dev.belay.ownerUnit ≠ 0 → ∀ k, k < 88 → stageState s.dev k ≠ 0 → ∃ x ∈ t.dev.pe.deliveries,
        x.id = stagePoint k ∧ x.refresh = true ∧ x.claim = s.dev.belay.owner)) ∧
    (s.dev.link.coreLost = false → s.dev.link.fieldLost = false → exec .dieLinkReturn s = .next (after s (fresh s)))

/-- CROSSING_QUALIFIED, CROSSING_MISSED, MS_PRESENT_LAPSE, HOLDOVER_TIMEOUT (parts of R15–R17, R20, R23). With the reference
stopped a crossing changes nothing. A crossing of 45 to 65 Hz: in LOCKED, more than 8192 counts from where it is due it is a
glitch, else it gives the phase error, ends the run of misses and sets the rate to the mean of the newest 16 half-periods,
the angle not stepping; in RELOCKING the 32nd in phase locks; in ACQUIRING, HOLDOVER and LOST the fourth of four that agree
enters RELOCKING. The second miss in LOCKED raises MAINS_PFW where TB_CTRL[5] asks for it; the third in LOCKED or RELOCKING
enters HOLDOVER at the held frequency; in any other state a miss changes nothing. When MS_PRESENT lapses both mains points
get a change of quality to STALE, which keeps their value, in the engine's queue or, with the die link down, held by the field
die. HOLDOVER_TIMEOUT leaves HOLDOVER for LOST, angle and cycle as they were, and changes nothing in another state. -/
def Obligations.MainsCrossings : Prop :=
  ∀ (rising : Bool) (edge : Half) (hz : Word) (s : State),
    (s.dev.tb.refRuns = false → exec (.crossingQualified rising edge hz) s = .next (after s (fresh s))) ∧
    (s.dev.tb.refRuns = true → s.dev.power.fieldUp = true → hzOk hz = true →
      let e := shortWay ((edge.toNat : Int) - expectedAngle s.dev.tb rising)
      (s.dev.tb.st = .locked → 8192 < e.natAbs → exec (.crossingQualified rising edge hz) s = .next (after s
        { fresh s with tb := { s.dev.tb with
          present := true, everPresent := true, glitch := min 65535 (s.dev.tb.glitch + 1) } })) ∧
      (s.dev.tb.st = .locked → e.natAbs ≤ 8192 → ∃ t, exec (.crossingQualified rising edge hz) s = .next t ∧
        t.dev.tb.st = .locked ∧ t.dev.tb.missRun = 0 ∧ t.dev.tb.err = hw (unsgn 16 e) ∧
        t.dev.tb.rate = meanHz (capList 16 (s.dev.tb.halves ++ [hz])) ∧ t.dev.tb.angle = s.dev.tb.angle) ∧
      (s.dev.tb.st = .relocking → e.natAbs < 64 → 31 ≤ s.dev.tb.inPhase →
        ∃ t, exec (.crossingQualified rising edge hz) s = .next t ∧ t.dev.tb.st = .locked) ∧
      ((s.dev.tb.st = .acquiring ∨ s.dev.tb.st = .holdover ∨ s.dev.tb.st = .lost) → 3 ≤ s.dev.tb.agree →
        agree4 (capList 16 (s.dev.tb.halves ++ [hz])) = true →
        ∃ t, exec (.crossingQualified rising edge hz) s = .next t ∧ t.dev.tb.st = .relocking)) ∧
    (s.dev.tb.st = .locked → s.dev.tb.missRun = 1 → bit s.dev.tb.ctrl 5 = true → s.dev.tb.pfwRaised = false →
      coreRuns s.dev = true → ∃ t, exec .crossingMissed s = .next t ∧ t.dev.tb.st = .locked ∧ t.dev.tb.missRun = 2 ∧
        bit t.dev.tb.flags 0 = true ∧ t.dev.lk.mainsPfw = true ∧ t.dev.lk.pfw = true) ∧
    (s.dev.tb.st = .locked ∨ s.dev.tb.st = .relocking → s.dev.tb.missRun = 2 →
      ∃ t, exec .crossingMissed s = .next t ∧ t.dev.tb.st = .holdover ∧ t.dev.tb.rate = s.dev.tb.held ∧
        bit t.dev.tb.flags 1 = true ∧ t.dev.tb.missed = min 65535 (s.dev.tb.missed + 1)) ∧
    (s.dev.tb.st ≠ .locked → s.dev.tb.st ≠ .relocking → exec .crossingMissed s = .next (after s (fresh s))) ∧
    (s.dev.tb.present = true → ∃ t, exec .msPresentLapse s = .next t ∧ t.dev.tb = { s.dev.tb with present := false } ∧
      ∀ id, id = 0x4FF500 ∨ id = 0x4FF501 →
        ∃ x ∈ (if s.dev.link.coreLost then t.dev.pe.heldField else t.dev.pe.queue ++ t.dev.pe.held),
          x.id = id ∧ x.act = .quality 1) ∧
    (s.dev.tb.present = false → exec .msPresentLapse s = .next (after s (fresh s))) ∧
    (s.dev.tb.st = .holdover → ∃ t, exec .holdoverTimeout s = .next t ∧ t.dev.tb.st = .lost ∧
      bit t.dev.tb.flags 2 = true ∧ t.dev.tb.angle = s.dev.tb.angle ∧ t.dev.tb.cycle = s.dev.tb.cycle) ∧
    (s.dev.tb.st ≠ .holdover → exec .holdoverTimeout s = .next (after s (fresh s)))

/-- CYCLE_BOUNDARY, ANGLE_EVENT_DISPATCH, RELAY_COIL_START, TB_CTRL_WRITE, TB_PHASE_OFS_WRITE, TB_ANGLE_READ, REF_CLOCK_STOP,
REF_CLOCK_RESTART (parts of R18–R21, R28–R31, R33, R437). The boundary sets the angle to 0 and the cycle on by one, with a
waiting jump on top, and changes nothing while the reference is stopped. With no entry a dispatch moves the angle alone, and
delivers what waits. Where no arrival waits behind it and no other occurrence is due, a one-shot HOST_EVENT fires at its
count: the entry is disabled, and its event waits for its ring, merged with one that waits, where the interface is off or the
Sluice closed; and the start stamp of a RELAY_CLOSE starts its coil and disarms its channel. RELAY_COIL_START of an entry that
is absent, disabled, of another action or started already changes nothing. A step on an empty queue counts one angle count
where no occurrence is due (the model's choice, log entry 2). TB_CTRL keeps bits F3h; TB_ANGLE answers the angle and latches
the cycle; a new TB_PHASE_OFS leaves LOCKED for RELOCKING and never steps the angle. The stopped reference enters LOST and
stops the core die; its restart enters SYNTHETIC where LOST is the stop's doing and MODE is 2 or 3; angle and cycle stand. -/
def Obligations.CycleAndAngleEvents : Prop :=
  ∀ (rms : Word) (a : Half) (v : Word) (s : State),
    (s.dev.tb.refRuns = false → exec (.cycleBoundary rms) s = .next (after s (fresh s))) ∧
    (s.dev.tb.refRuns = true → ∃ t, exec (.cycleBoundary rms) s = .next t ∧ t.dev.tb.angle = 0#16 ∧
      t.dev.tb.cycle = s.dev.tb.cycle + 1#32 + wd s.dev.tb.jump ∧ t.dev.tb.jump = 0) ∧
    (∀ i e, s.dev.tb.refRuns = true → nextArrival s.pending (fresh s) = none → s.dev.tb.owed = [] →
      s.dev.tb.entries = [(i, e)] → aeEnabled e = true → aeAction e = 7 → aeRepeat e = 0 → e.start = e.occ →
      e.occ = ⟨s.dev.tb.cycle, a⟩ → s.dev.tb.angle.toNat ≤ a.toNat →
      ∃ t, exec (.angleEventDispatch a) s = .next t ∧ t.dev.tb.angle = a ∧ t.dev.tb.cycle = s.dev.tb.cycle ∧
        t.dev.tb.entries = [(i, { e with w0 := setBit e.w0 31 false })] ∧
        (s.dev.hif.enabled = false ∨ s.dev.hif.sluice = true → Tab.find t.dev.tb.waiting i = some
          ⟨fld e.w2 4 0, e.w3, min 65535 (((Tab.find s.dev.tb.waiting i).map (·.count)).getD 0 + 1), e.occ, false,
            tbStateCode s.dev.tb.st⟩)) ∧
    (nextArrival s.pending (fresh s) = none → s.dev.tb.entries = [] → s.dev.tb.owed = [] →
      exec (.angleEventDispatch a) s = .next (after s (settle (reach ⟨s.dev.tb.cycle, a⟩ (fresh s))))) ∧
    (∀ i : Fin 1024, Tab.find s.dev.tb.entries i.val = none → exec (.relayCoilStart i) s = .next (after s (fresh s))) ∧
    (∀ (i : Fin 1024) e, s.dev.tb.refRuns = true → nextArrival s.pending (fresh s) = none → s.dev.tb.owed = [] →
      s.dev.tb.entries = [(i.val, e)] → aeEnabled e = true → aeAction e = 4 → e.started = false →
      e.start.cycle = s.dev.tb.cycle → s.dev.tb.angle.toNat ≤ e.start.angle.toNat → later e.occ e.start = true →
      let d := putEntry i.val { e with started := true } (reach e.start (fresh s))
      ∃ t, exec (.relayCoilStart i) s = .next t ∧ t.dev.tb.angle = e.start.angle ∧
        (Tab.find t.dev.tb.entries i.val).map (·.started) = some true ∧
        t.dev.coil = (coilFire i.val (fld e.w2 5 0) false d).coil ∧ (chanOf t.dev (fld e.w2 5 0)).armed = false) ∧
    (∀ (i : Fin 1024) e, Tab.find s.dev.tb.entries i.val = some e →
      (aeEnabled e = false ∨ aeAction e ≠ 4 ∨ e.started = true) →
      exec (.relayCoilStart i) s = .next (after s (fresh s))) ∧
    (s.pending = [] → s.dev.tb.refRuns = true → dispatchDue s.dev = false → s.dev.tb.angle.toNat < 65535 →
      step s = .next (after s { fresh s with tb := { passCounts 1 s.dev.tb with angle := s.dev.tb.angle + 1#16 } })) ∧
    exec (.tbCtrlWrite v) s = .next (after s { fresh s with tb := { s.dev.tb with ctrl := v &&& 0xF3#32 } }) ∧
    exec .tbAngleRead s = .next (after s { fresh s with
      tb := { s.dev.tb with snap := s.dev.tb.cycle }, outbox := [.readData (wd s.dev.tb.angle.toNat)] }) ∧
    (hw v.toNat = s.dev.tb.ofs → exec (.tbPhaseOfsWrite v) s = .next (after s (fresh s))) ∧
    (hw v.toNat ≠ s.dev.tb.ofs → ∃ t, exec (.tbPhaseOfsWrite v) s = .next t ∧ t.dev.tb.ofs = hw v.toNat ∧
      t.dev.tb.st = (if s.dev.tb.st = .locked then .relocking else s.dev.tb.st) ∧ t.dev.tb.angle = s.dev.tb.angle) ∧
    (s.dev.tb.refRuns = true → ∃ t, exec .refClockStop s = .next t ∧ t.dev.tb.st = .lost ∧ coreRuns t.dev = false ∧
      t.dev.tb.angle = s.dev.tb.angle ∧ t.dev.tb.cycle = s.dev.tb.cycle ∧ t.dev.pe = s.dev.pe ∧ t.dev.hif = s.dev.hif) ∧
    (s.dev.tb.refRuns = false → exec .refClockStop s = .next (after s (fresh s))) ∧
    (s.dev.tb.refRuns = false → ∃ t, exec .refClockRestart s = .next t ∧ t.dev.tb.refRuns = true ∧
      t.dev.tb.angle = s.dev.tb.angle ∧ t.dev.tb.cycle = s.dev.tb.cycle ∧
      (s.dev.tb.lostByRef = true → 2 ≤ s.dev.tb.mode → t.dev.tb.st = .synthetic)) ∧
    (s.dev.tb.refRuns = true → exec .refClockRestart s = .next (after s (fresh s)))

/-- ANGLE_EVENT_SET with an entry named (parts of R27, R31, R32, R240, R364): a reserved field fails at its offset; an entry
of another owner is RESOURCE_BUSY with the owner and the resource; with ACTION NONE an entry of no other owner is released,
its free registers keeping the words; with an action, and room in the resource table, the entry becomes the host's and lands
at the present count; RESULT0 is its number. TARGET all ones takes the lowest entry no one owns; NO_CAPACITY where every
entry is owned or the table is full; any other TARGET above 1,023 is BAD_FORMAT at 0x08. -/
def Obligations.AngleEventSet : Prop :=
  ∀ (c : HostCmd) (s : State), Ready 0x0408 c s →
    (∀ off, entryFault c.p0 c.p2 = some off →
      exec (.angleEventSet c) s = .next (replied 0x0408 c (badField off) (fresh s) s)) ∧
    (entryFault c.p0 c.p2 = none →
      (∀ i, (c.target.toNat < 1024 ∧ i = c.target.toNat) ∨ (c.target = 0xFFFFFFFF#32 ∧ freeEntry s.dev = some i) →
        (∀ o, ownerOf s.dev (resAngle i) = some o → o ≠ ownHost →
          exec (.angleEventSet c) s = .next (replied 0x0408 c (fail 0x0300 o (wd (resAngle i))) (fresh s) s)) ∧
        (releaseCheck [resAngle i] ownHost s.dev = none → fld c.p0 19 16 = 0 →
          exec (.angleEventSet c) s = .next (replied 0x0408 c (okWith (wd i))
            (keepFreeWords i c.p0 c.p1 c.p2 c.p3 (fresh s)) s)) ∧
        (claimCheck [resAngle i] ownHost s.dev = some .full → fld c.p0 19 16 ≠ 0 →
          exec (.angleEventSet c) s = .next (replied 0x0408 c (fail 0x0302) (fresh s) s)) ∧
        (claimCheck [resAngle i] ownHost s.dev = none → fld c.p0 19 16 ≠ 0 →
          exec (.angleEventSet c) s = .next (replied 0x0408 c (okWith (wd i))
            (landEntry i c.p0 c.p1 c.p2 c.p3 (claimAll [resAngle i] ownHost (fresh s))) s))) ∧
      (c.target = 0xFFFFFFFF#32 → freeEntry s.dev = none →
        exec (.angleEventSet c) s = .next (replied 0x0408 c (fail 0x0302) (fresh s) s)) ∧
      (1024 ≤ c.target.toNat → c.target ≠ 0xFFFFFFFF#32 →
        exec (.angleEventSet c) s = .next (replied 0x0408 c (badField 0x08) (fresh s) s)))

/-! ## Reset -/

/-- The state after reset (parts of R47, R164, R283, R306, R322): the queue is empty, every point record's check verifies, the
timebase acquires from cycle 0 with TB_CTRL 0x20, the RTC stands at 2000-01-01 00:00:00 and is not VALID, the 31 words of the
backup bytes are 0, every output stage is in NO_OWNER, both units' HEALTH is 200 and neither is live, the host interface is
off, DB_POLL and SP_CTRL read 10 and every CQ's coalescing register 1, there is no memory plan, the debug state is 0, and the
throttle level is 0. -/
def Obligations.ResetState : Prop :=
  let d := State.reset.dev
  State.reset.pending = [] ∧ queueOk State.reset ∧ (∀ id r, recOf d id = some r → checkOk id r = true) ∧
  d.tb.st = .acquiring ∧ now d = ⟨0#32, 0#16⟩ ∧ viewReg .reg 0x01000000 d = some 0x20#32 ∧
  d.clk.now = { sec := 0, min := 0, hour := 0, day := 1, wday := 6, month := 1, year := 0 } ∧ rtcValid d = false ∧
  (∀ i, i < 31 → viewReg .reg (0x01100100 + 4 * i) d = some 0#32) ∧
  (∀ k, stageState d k = 2) ∧ (∀ c, (track d c).health = 200 ∧ (track d c).live = false) ∧
  d.hif.enabled = false ∧ bar0Read 0x48 d = 10#32 ∧ bar0Read 0x38 d = 10#32 ∧
  (∀ n, n < 32 → bar0Read (0x50C + 0x20 * n) d = 1#32) ∧ d.pe.plan = none ∧ d.sec.debug = 0 ∧ d.th.level = 0

/-! ## Points -/

/-- The lowest-numbered level that is not NULL resolves, at its own number; with every level NULL the relinquish default
does, as level 0 (R58); a resolved record holds the number and the value of its array's resolution. -/
def Obligations.LowestLevelWins : Prop :=
  ∀ (p : Prio) (d : Dev) (r : Rec) (wrote : Option (Nat × Nat)),
    (∀ l v, 1 ≤ l → l ≤ 16 → levelValue p l = some v → (∀ m, 1 ≤ m → m < l → levelValue p m = none) →
      resolve p = (l, v)) ∧
    ((∀ m, 1 ≤ m → m ≤ 16 → levelValue p m = none) → resolve p = (0, p.dflt)) ∧
    (resolveRec d r p wrote).1.prio = (resolve (resolveRec d r p wrote).2).1 ∧
    (resolveRec d r p wrote).1.value = (resolve (resolveRec d r p wrote).2).2

/-- R47: the worst of several quality codes is the one of the highest rank. -/
def Obligations.WorstQuality : Prop :=
  ∀ a b : Nat, a < 8 → b < 8 → qRank (qWorst a b) = max (qRank a) (qRank b) ∧ (qWorst a b = a ∨ qWorst a b = b) ∧
    (qRank a = qRank b → a = b)

/-- Every record's check verifies and its quality is a code of R46 (R48, R51). -/
def recordsOk (d : Dev) : Prop := ∀ id r, recOf d id = some r → checkOk id r = true

/-- The quality an operation brings is a code of R46. -/
def opOk (o : PointOp) : Bool :=
  match o.act with
  | .write _ q _ _ => decide (q < 8)
  | .quality q => decide (q < 8)
  | .relinquish _ | .lockEnd | .stale => true

/-- Every operation that the point engine takes from its queue leaves every record with a check that verifies, and with a
quality code of the manual, whatever check the operation arrived with (parts of R46, R48–R52), provided the qualities that
waiting operations bring are such codes. -/
def Obligations.OperationsKeepChecks : Prop :=
  ∀ (first again : Bool) (s t : State), recordsOk s.dev → (∀ o ∈ s.dev.pe.queue, opOk o = true) →
    exec (.pointOperation first again) s = .next t → recordsOk t.dev

/-- R50: a write that arrives with a check is verified before anything is stored: one whose check fails is not stored,
answers CHECK_FAIL, no record changes, and the units of the path that delivered it, named by its SOURCE (R313), are put
under test; one whose check holds is no CHECK_FAIL. -/
def Obligations.FailedCheckNotStored : Prop :=
  ∀ (o : PointOp) (r : Rec) (v : Word) (q : Nat) (k : Half) (p : Nat) (d : Dev), recOf d o.id = some r →
    o.act = .write v q (some k) p →
    (k ≠ pointCheck o.id v q r.kind → (commitOp o d).1 = .checkFail ∧
      writeFailure o.id v (some r) (commitOp o d).1 = fail stCheckFail (wd o.id) ∧
      (∀ id, recOf (commitOp o d).2 id = recOf d id) ∧
      ∀ u, u ∈ unitsOfSource d o.id o.source → retired d u = false →
        (Tab.find (commitOp o d).2.integ.tests u).isSome = true) ∧
    (q < 8 → k = pointCheck o.id v q r.kind → (commitOp o d).1 ≠ .checkFail)

/-- POINT_OPERATION (parts of R64, R65): the engine takes the first operation of its queue, whose room an operation held by
its writer takes. With both pipelines in service the operation commits when they agree, at the first attempt or at the
repeat, and a mismatch starts their test; two mismatches commit nothing. One pipeline alone commits without comparison; with
none nothing commits; while they are tested the engine takes none. With an empty queue a first result that mismatches is kept
for the next operation of a host command. -/
def Obligations.PointOperation : Prop :=
  (∀ (again : Bool) (s : State), s.dev.pe.queue = [] →
    exec (.pointOperation true again) s = .next (after s (fresh s)) ∧
    exec (.pointOperation false again) s =
      .next (after s { fresh s with pe := { s.dev.pe with upset := some again } })) ∧
  ∀ (first again : Bool) (o : PointOp) (rest : List PointOp) (s : State), s.dev.pe.queue = o :: rest →
    let d := refill { fresh s with pe := { s.dev.pe with queue := rest } }
    let done := countWriteFail o (commitOp o d).1 (commitOp o d).2
    let lost := countWriteFail o .checkFail d
    (s.dev.pe.testing = true → exec (.pointOperation first again) s = .next (after s (fresh s))) ∧
    (s.dev.pe.testing = false →
      (s.dev.pe.p0 = true → s.dev.pe.p1 = true →
        exec (.pointOperation first again) s = .next (after s (settle
          (if first then done else if again then errorTest unitPipes done else errorTest unitPipes lost)))) ∧
      (s.dev.pe.p0 ≠ s.dev.pe.p1 → exec (.pointOperation first again) s = .next (after s (settle done))) ∧
      (s.dev.pe.p0 = false → s.dev.pe.p1 = false →
        exec (.pointOperation first again) s = .next (after s (settle lost))))

/-- MIN_TIME_LOCK_EXPIRY, STALE_TIMEOUT, ALARM_DELAY_EXPIRY, LONE_PIPELINE_TEST, PENDING_CHANGE_DELIVERY,
TREND_PERIODIC_SAMPLE (parts of R58, R60, R65, R73, R77, R78, R81). Where the engine takes the operation at once, the end of a
minimum-time lock leaves the point at the resolution of its array, and STALE_TIMEOUT turns the quality STALE and keeps the
value; there is nothing to do without a lock, on a point that is STALE already, or while a write to it waits. At the end of an
alarm delay the pending state is entered and the block judged again; without a pending state nothing happens. A lone pipeline
is put under its scheduled test, which pauses the engine and changes no record; with both or none in service nothing happens.
A delivery to a completion ring posts what waits for it, nothing where it has no room for an event; a delivery to an open
port whose core serves and whose transmissions are not quenched sends those that waited, and one to a closed port nothing. A
log takes a periodic sample of its point's record, stamped at angle 0 of the cycle, in cycles that match PERIOD and PHASE,
and none in others. -/
def Obligations.PointTimers : Prop :=
  ∀ (id : Nat) (r : Rec) (s : State), recOf s.dev id = some r →
    (engineReady s id → commandable r = true → lockActive (prioOf s.dev r) = true →
      ∃ t r', exec (.minTimeLockExpiry id) s = .next t ∧ recOf t.dev id = some r' ∧
        r'.prio = (resolve (prioOf t.dev r')).1 ∧ r'.value = (resolve (prioOf t.dev r')).2) ∧
    (lockActive (prioOf s.dev r) = false → exec (.minTimeLockExpiry id) s = .next (after s (fresh s))) ∧
    (∀ l, engineReady s id → limitOf s.dev (limitRef s.dev r) = some l → l.staleAfter ≠ 0#32 → checkOk id r = true →
      recQ r ≠ 1 → stageHeld s.dev id = false →
      ∃ t r', exec (.staleTimeout id) s = .next t ∧ recOf t.dev id = some r' ∧ recQ r' = 1 ∧ r'.value = r.value) ∧
    (recQ r = 1 ∨ writeWaits s.dev id = true → exec (.staleTimeout id) s = .next (after s (fresh s))) ∧
    (∀ l, limitOf s.dev (limitRef s.dev r) = some l → l.pendTo = none →
      exec (.alarmDelayExpiry id) s = .next (after s (fresh s))) ∧
    (∀ l toW, pipesServe s.dev = true → limitOf s.dev (limitRef s.dev r) = some l → l.pendTo = some toW →
      exec (.alarmDelayExpiry id) s = .next (after s (settle (judgeLimit id
        (fun d => evalLimit id (limitRef s.dev r) 4 (enterLimit id (limitRef s.dev r) toW d)) (fresh s))))) ∧
    (s.dev.pe.p0 = s.dev.pe.p1 → exec .lonePipelineTest s = .next (after s (fresh s))) ∧
    (s.dev.pe.p0 ≠ s.dev.pe.p1 → Tab.find s.dev.integ.tests unitPipes = none →
      exec .lonePipelineTest s = .next (after s { fresh s with
        pe := { s.dev.pe with testing := true }
        integ := { s.dev.integ with tests := Tab.put s.dev.integ.tests unitPipes { blankTest with scheduled := true } } })) ∧
    (∀ n : Fin 32, exec (.pendingChangeDelivery (.cq n)) s = .next (after s (flushCq n.val (fresh s)))) ∧
    (∀ n : Fin 32, eventRoom s.dev n.val = false →
      exec (.pendingChangeDelivery (.cq n)) s = .next (after s (fresh s))) ∧
    (∀ (p : Fin 24) k, (portOf s.dev p.val).isOpen = true → (portOf s.dev p.val).held = false →
      (portOf s.dev p.val).qTx = false → ∃ t, exec (.pendingChangeDelivery (.port p k)) s = .next t ∧
        t = after s (flushPort p.val k (fresh s)) ∧ (portOf t.dev p.val).waitTx = []) ∧
    (∀ (p : Fin 24) k, (portOf s.dev p.val).isOpen = false →
      exec (.pendingChangeDelivery (.port p k)) s = .next (after s (fresh s))) ∧
    (∀ log t, Tab.find s.dev.pe.trends log = some t → trendDue t (now s.dev).cycle.toNat = false →
      exec (.trendPeriodicSample log) s = .next (after s (fresh s))) ∧
    (∀ log t, Tab.find s.dev.pe.trends log = some t → trendDue t (now s.dev).cycle.toNat = true → t.point = id →
      checkOk id r = true → coreRuns s.dev = true → (s.dev.pe.p0 || s.dev.pe.p1) = true →
      exec (.trendPeriodicSample log) s = .next
        (after s (settle (captureLog log 0 r ⟨(now s.dev).cycle, 0#16⟩ 0 (fresh s)))))

/-- POINT_READ and POINT_READ_MANY (parts of R37, R51, R362). A read answers value, status with check, and cycle, and puts the
record into a buffer that has room for it; a buffer too short is BAD_FORMAT. A point that does not exist fails by its ID. A
record whose check fails is not read: the read answers CHECK_FAIL, and the record keeps its value and turns FAULT under a
check that verifies, with the engine as its SOURCE. POINT_READ_MANY of 1 to 65,536 IDs writes 32 bytes for each, the records
in order where all are sound, and counts those read, not found and failed; 0 or more is BAD_FORMAT. -/
def Obligations.PointReads : Prop :=
  ∀ (c : HostCmd) (s : State),
    let id := c.target.toNat
    (Ready 0x0102 c s → recOf s.dev id = none →
      exec (.pointRead c) s = .next (replied 0x0102 c (idFailure id) (fresh s) s)) ∧
    (∀ r, Ready 0x0102 c s → recOf s.dev id = some r → checkOk id r = true →
      let x := okWith r.value (wd (r.status.toNat * 65536 + r.check.toNat)) r.stamp.cycle
      ((trim c).bufLen = 0 → exec (.pointRead c) s = .next (replied 0x0102 c x (fresh s) s)) ∧
      (32 ≤ (trim c).bufLen → exec (.pointRead c) s =
        .next (replied 0x0102 c x (hostWrite c.bufAddr (wordsBytes (recWords r)) (fresh s)) s)) ∧
      (0 < (trim c).bufLen → (trim c).bufLen < 32 →
        exec (.pointRead c) s = .next (replied 0x0102 c (badField 0x28) (fresh s) s))) ∧
    (∀ r, Ready 0x0102 c s → recOf s.dev id = some r → checkOk id r = false →
      ∃ d r', exec (.pointRead c) s = .next (replied 0x0102 c (fail 0x0102 (wd id)) d s) ∧ recOf d id = some r' ∧
        recQ r' = 3 ∧ checkOk id r' = true ∧ r'.source = srcEngine ∧ r'.value = r.value) ∧
    (Ready 0x0105 c s → 1 ≤ c.count.toNat → c.count.toNat ≤ 65536 → 4 * c.count.toNat ≤ (trim c).bufLen →
      canWrite s.dev (addr64 c.p0 c.p1) (32 * c.count.toNat) = true →
      (∃ a b f d, exec (.pointReadMany c) s = .next (replied 0x0105 c (okWith (wd a) (wd b) (wd f)) d s) ∧
        a + b = c.count.toNat ∧ f ≤ a) ∧
      ∀ rs : Nat → Rec, (∀ i, i < c.count.toNat →
          recOf s.dev (wordAt (trim c).buf (4 * i)).toNat = some (rs i) ∧
          checkOk (wordAt (trim c).buf (4 * i)).toNat (rs i) = true) →
        exec (.pointReadMany c) s = .next (replied 0x0105 c (okWith c.count)
          (hostWrite (addr64 c.p0 c.p1) ((List.range c.count.toNat).flatMap fun i => wordsBytes (recWords (rs i)))
            (fresh s)) s)) ∧
    (Ready 0x0105 c s → (c.count.toNat = 0 ∨ 65536 < c.count.toNat) →
      exec (.pointReadMany c) s = .next (replied 0x0105 c (badField 0x0C) (fresh s) s))

/-- POINT_WRITE and POINT_RELINQUISH of a user point without an output stage or a guard, with no operation or delivery of it
waiting (parts of R45, R58, R366). A plain point takes a value in its range, GOOD, with the host's SOURCE and the present
stamp; a commandable point takes it at the named level and holds the resolution of its array; both are read back with a check
that verifies. A value out of range is BAD_FORMAT and stores nothing. A relinquish empties its level and resolves; a level it
cannot name is BAD_FORMAT, a point without levels CONFLICT. -/
def Obligations.PointWrites : Prop :=
  ∀ (c : HostCmd) (r : Rec) (s : State),
    let id := c.target.toNat
    recOf s.dev id = some r → stageOf s.dev id = none → isPredef id = false → guardedOf r = false →
    (∀ o ∈ s.dev.pe.queue, o.id ≠ id) → (∀ x ∈ s.dev.pe.deliveries, x.id ≠ id) →
    (Ready 0x0103 c s → commandable r = false → outOfService r = false → valueFits r.kind (statesOf r) c.p0 = true →
      envelopeOf s.dev id = none →
      ∃ x d r', exec (.pointWrite c) s = .next (replied 0x0103 c x d s) ∧ x.status = 0 ∧ x.r0 = c.p0 ∧
        recOf d id = some r' ∧ r'.value = c.p0 ∧ recQ r' = 0 ∧ r'.source = srcHost c.sq.val ∧ r'.stamp = now s.dev ∧
        checkOk id r' = true) ∧
    (Ready 0x0103 c s → commandable r = true → valueFits r.kind (statesOf r) c.p0 = true → envelopeOf s.dev id = none →
      1 ≤ fld c.p1 4 0 → fld c.p1 4 0 ≤ 16 → fld c.p1 4 0 ≠ 6 →
      ∃ x d r', exec (.pointWrite c) s = .next (replied 0x0103 c x d s) ∧ x.status = 0 ∧ recOf d id = some r' ∧
        Tab.find (prioOf d r').slots (fld c.p1 4 0) = some c.p0 ∧ r'.prio = (resolve (prioOf d r')).1 ∧
        r'.value = (resolve (prioOf d r')).2 ∧ x.r0 = r'.value ∧ x.r2 = wd r'.prio ∧ checkOk id r' = true) ∧
    (Ready 0x0103 c s → valueFits r.kind (statesOf r) c.p0 = false →
      exec (.pointWrite c) s = .next (replied 0x0103 c (badField 0x10) (fresh s) s)) ∧
    (Ready 0x0104 c s → commandable r = true → 1 ≤ fld c.p1 4 0 → fld c.p1 4 0 ≤ 16 → fld c.p1 4 0 ≠ 6 →
      ∃ x d r', exec (.pointRelinquish c) s = .next (replied 0x0104 c x d s) ∧ x.status = 0 ∧ recOf d id = some r' ∧
        Tab.find (prioOf d r').slots (fld c.p1 4 0) = none ∧ r'.prio = (resolve (prioOf d r')).1 ∧
        r'.value = (resolve (prioOf d r')).2 ∧ x.r0 = r'.value ∧ x.r2 = wd r'.prio) ∧
    (Ready 0x0104 c s → commandable r = true → (fld c.p1 4 0 = 0 ∨ 16 < fld c.p1 4 0 ∨ fld c.p1 4 0 = 6) →
      exec (.pointRelinquish c) s = .next (replied 0x0104 c (badField 0x14) (fresh s) s)) ∧
    (Ready 0x0104 c s → commandable r = false →
      exec (.pointRelinquish c) s = .next (replied 0x0104 c (fail 0x0401) (fresh s) s))

/-- AO_SET, TG_SET, FAN_SET, COIL_CMD (parts of R220, R222–R224, R243, R246, R249, R366). An output that does not exist is
BAD_FORMAT. A write in range whose level wins reaches its stage at once: an enabled analogue output applies it limited to its
span and drives its code, a gate output holds it for its next crossing, a fan runs at its target, an enabled OFF coil channel
that the bank and its limits let pull in, and that is not tied to an angle, enters PULL_IN with it as its target. The first
three answer OK with the value applied and their STATUS register. Every COIL_CMD answers now or waits for its channel. -/
def Obligations.OutputCommands : Prop :=
  ∀ (c : HostCmd) (r : Rec) (s : State),
    let n := c.target.toNat
    let p := fld c.p1 4 0
    (Ready 0x0506 c s → n < 16 → WriteReady (aoId n) (48 + n) p r s → valueFits r.kind (statesOf r) c.p0 = true →
      F32.finite c.p0 = true → bit (aoOf s.dev n).cfg 0 = true →
      ∃ d, exec (.aoSet c) s = .next (replied 0x0506 c (okWith (aoOf d n).applied (aoStatus d n)) d s) ∧
        (aoOf d n).applied = aoSpan (aoOf s.dev n) c.p0 ∧ (aoOf d n).code = aoCode (aoSpan (aoOf s.dev n) c.p0)) ∧
    (Ready 0x0506 c s → n < 16 → ∃ x d, exec (.aoSet c) s = .next (replied 0x0506 c x d s) ∧
      (x.status = 0 → x = okWith (aoOf d n).applied (aoStatus d n))) ∧
    (Ready 0x0506 c s → 16 ≤ n → exec (.aoSet c) s = .next (replied 0x0506 c (badField 0x08) (fresh s) s)) ∧
    (Ready 0x0507 c s → n < 16 → WriteReady (tgId n) (64 + n) p r s → valueFits r.kind (statesOf r) c.p0 = true →
      F32.finite c.p0 = true → bit (tgOf s.dev n).cfg 0 = true →
      ∃ d, exec (.tgSet c) s = .next (replied 0x0507 c (okWith (tgOf d n).value (tgStatus d n)) d s) ∧
        (tgOf d n).held = some c.p0 ∧ (tgOf d n).value = (tgOf s.dev n).value) ∧
    (Ready 0x0507 c s → n < 16 → ∃ x d, exec (.tgSet c) s = .next (replied 0x0507 c x d s) ∧
      (x.status = 0 → x = okWith (tgOf d n).value (tgStatus d n))) ∧
    (Ready 0x0507 c s → 16 ≤ n → exec (.tgSet c) s = .next (replied 0x0507 c (badField 0x08) (fresh s) s)) ∧
    (Ready 0x0508 c s → n < 8 → WriteReady (fanId n) (80 + n) p r s → valueFits r.kind (statesOf r) c.p0 = true →
      F32.finite c.p0 = true → bit (fanOf s.dev n).cfg 0 = true →
      ∃ d, exec (.fanSet c) s = .next (replied 0x0508 c (okWith (fanOf d n).applied (fanStatus d n)) d s) ∧
        (fanOf d n).applied = fanTarget (fanOf s.dev n) c.p0 ∧
        (fanOf d n).duty = fanDuty (fanTarget (fanOf s.dev n) c.p0)) ∧
    (Ready 0x0508 c s → n < 8 → ∃ x d, exec (.fanSet c) s = .next (replied 0x0508 c x d s) ∧
      (x.status = 0 → x = okWith (fanOf d n).applied (fanStatus d n))) ∧
    (Ready 0x0508 c s → 8 ≤ n → exec (.fanSet c) s = .next (replied 0x0508 c (badField 0x08) (fresh s) s)) ∧
    (Ready 0x0504 c s → n < 48 → WriteReady (predefBase + coilPoint n 0) n p r s →
      valueFits r.kind (statesOf r) c.p0 = true → F32.finite c.p0 = true → F32.gt (limitCmd c.p0) F32.zero = true →
      chEnabled (chanOf s.dev n) = true → (chanOf s.dev n).st = 0 → (chanOf s.dev n).armed = false →
      chAngle (chanOf s.dev n) = false → s.dev.coil.vdrvGood = true → overLimit s.dev (chanOf s.dev n) = false →
      pullingIn s.dev (n / 6) = none →
      ∃ t, exec (.coilCmd c) s = .next t ∧ (chanOf t.dev n).st = 2 ∧ (chanOf t.dev n).target = limitCmd c.p0 ∧
        (chanOf t.dev n).pullStart = some (fieldNow s.dev) ∧ (chanOf t.dev n).waiting = []) ∧
    (Ready 0x0504 c s → 48 ≤ n → exec (.coilCmd c) s = .next (replied 0x0504 c (badField 0x08) (fresh s) s)) ∧
    (Ready 0x0504 c s → n < 48 → ∃ d, exec (.coilCmd c) s = .next (awaiting 0x0504 c d s) ∨
      ∃ x, exec (.coilCmd c) s = .next (replied 0x0504 c x d s))

/-- POINT_SUBSCRIBE, POINT_UNSUBSCRIBE, POINT_LIMITS of a point that exists (parts of R67–R70, R75, R76, R79, R468). A class
or target that is not allowed fails and changes nothing. A subscription of a sound record takes the lowest free entry, which
a ring's or a port's delivery waits in at once; one that stands already is CONFLICT. An unsubscription drops the entry, and
one that does not stand is NOT_FOUND. A limit block with a field at fault is BAD_FORMAT there; else it replaces the block of
the point and keeps its state where the new one still enables it, or takes two new entries in state NORMAL. A deletion frees
both entries and answers the reference of no block; without a block it is NOT_FOUND. An acknowledgement marks its alarms. -/
def Obligations.PointSubscriptions : Prop :=
  ∀ (c : HostCmd) (r : Rec) (s : State),
    let id := c.target.toNat
    let cls := fld c.p0 2 0
    recOf s.dev id = some r →
    (∀ x, Ready 0x0106 c s → targetFault cls c.p1 s.dev = some x →
      exec (.pointSubscribe c) s = .next (replied 0x0106 c x (fresh s) s)) ∧
    (Ready 0x0106 c s → targetFault cls c.p1 s.dev = none → checkOk id r = true →
      ((findSub s.dev cls id c.p1).isSome = true →
        exec (.pointSubscribe c) s = .next (replied 0x0106 c (fail 0x0401) (fresh s) s)) ∧
      (findSub s.dev cls id c.p1 = none → lowFree s.dev.pe.subs 0 < subCap s.dev →
        ∃ d x, exec (.pointSubscribe c) s = .next (replied 0x0106 c (okWith (wd (lowFree s.dev.pe.subs 0))) d s) ∧
          Tab.find d.pe.subs (lowFree s.dev.pe.subs 0) = some (.sub x) ∧ x.cls = cls ∧ x.point = id ∧
          x.target = c.p1 ∧ (cls = 1 ∨ cls = 2 → x.pending = true))) ∧
    (∀ i, Ready 0x0107 c s → findSub s.dev cls id c.p1 = some i →
      exec (.pointUnsubscribe c) s = .next (replied 0x0107 c (okWith (wd i)) (dropSub i id (fresh s)) s) ∧
      subAt (dropSub i id (fresh s)) i = none) ∧
    (Ready 0x0107 c s → findSub s.dev cls id c.p1 = none →
      exec (.pointUnsubscribe c) s = .next (replied 0x0107 c (fail 0x0400 (wd id)) (fresh s) s)) ∧
    (∀ o, Ready 0x0108 c s → fld c.p0 1 0 = 0 → 32 ≤ (trim c).bufLen → limitFault r.kind (trim c).buf = some o →
      exec (.pointLimits c) s = .next (replied 0x0108 c (badBuf o) (fresh s) s)) ∧
    (∀ l, Ready 0x0108 c s → fld c.p0 1 0 = 0 → 32 ≤ (trim c).bufLen → limitFault r.kind (trim c).buf = none →
      limitOf s.dev (limitRef s.dev r) = some l → stateDisabled (limitOfBuf id (limitState l) (trim c).buf) = false →
      exec (.pointLimits c) s = .next (replied 0x0108 c (okWith (limitRef s.dev r))
        (putLimit (limitRef s.dev r) (limitOfBuf id (limitState l) (trim c).buf) (fresh s)) s)) ∧
    (∀ i d', Ready 0x0108 c s → fld c.p0 1 0 = 0 → 32 ≤ (trim c).bufLen → limitFault r.kind (trim c).buf = none →
      limitOf s.dev (limitRef s.dev r) = none → takePair (fresh s) = some (i, d') → i < 8388608 →
      ∃ d, exec (.pointLimits c) s = .next (replied 0x0108 c (okWith (wd i)) d s) ∧
        Tab.find d.pe.subs i = some (.limit (limitOfBuf id 0 (trim c).buf)) ∧ Tab.find d.pe.subs (i + 1) = some .second) ∧
    (∀ l, Ready 0x0108 c s → fld c.p0 1 0 = 1 → limitOf s.dev (limitRef s.dev r) = some l →
      ∃ d, exec (.pointLimits c) s = .next (replied 0x0108 c (okWith 0x7FFFFFFF#32) d s) ∧
        Tab.find d.pe.subs (fld (limitRef s.dev r) 22 0) = none ∧
        Tab.find d.pe.subs (fld (limitRef s.dev r) 22 0 + 1) = none) ∧
    (Ready 0x0108 c s → fld c.p0 1 0 = 1 → limitOf s.dev (limitRef s.dev r) = none →
      exec (.pointLimits c) s = .next (replied 0x0108 c (fail 0x0400 (wd id)) (fresh s) s)) ∧
    (∀ e, Ready 0x0108 c s → fld c.p0 1 0 = 2 → ackAlarm id (fld c.p1 3 0) ⟨c.p2, hw c.p3.toNat⟩ (fresh s) = some e →
      exec (.pointLimits c) s = .next (replied 0x0108 c (okWith (limitRef s.dev r)) e s))

/-- POINT_DEFINE, TREND_DEFINE, TREND_READ (parts of R39, R44, R63, R81, R83, R85, R362, R363). A definition too short is
BAD_FORMAT, one beyond the plan NO_CAPACITY, one with a field at fault BAD_FORMAT there. A new plain point has the KIND and the
references of its definition, its initial value GOOD or 0 UNCOMMISSIONED, a new commandable one its relinquish default and the
next priority entry; both under a check that verifies. A log's definition gives it its point, mode, PERIOD, PHASE and capacity
where the samples' rate and region and the subscriptions allow it; a field at fault is BAD_FORMAT there, a log number above
1,048,575 too; the point 0x7F_FFFF deletes the log. TREND_READ writes the samples from the number asked for on and answers
their count and TOTAL; a log that is not defined is NOT_FOUND. -/
def Obligations.PointAndTrendDefinitions : Prop :=
  ∀ (c : HostCmd) (s : State),
    let id := c.target.toNat
    let b := fun o => wordAt (trim c).buf o
    (Ready 0x0101 c s → (trim c).bufLen < 32 →
      exec (.pointDefine c) s = .next (replied 0x0101 c (badField 0x28) (fresh s) s)) ∧
    (Ready 0x0101 c s → 32 ≤ (trim c).bufLen → planN s.dev ≤ id → id < 0x500000 → isPredef id = false →
      exec (.pointDefine c) s = .next (replied 0x0101 c (fail 0x0302) (fresh s) s)) ∧
    (Ready 0x0101 c s → 32 ≤ (trim c).bufLen → id < planN s.dev → id < 0x500000 → isPredef id = false →
      recOf s.dev id = none →
      (∀ o, definitionFault b = some o →
        exec (.pointDefine c) s = .next (replied 0x0101 c (badBuf o) (fresh s) s)) ∧
      (definitionFault b = none → bit (b 0) 8 = false → kindAlways (fld (b 0) 7 0) = false →
        ∃ d r, exec (.pointDefine c) s = .next (replied 0x0101 c (okWith (b 0x14)) d s) ∧ recOf d id = some r ∧
          r.kind = fld (b 0) 7 0 ∧ r.cov = b 4 ∧ r.link = b 0x14 ∧ commandable r = false ∧
          r.value = (if bit (b 0) 11 then b 0x10 else 0#32) ∧ recQ r = (if bit (b 0) 11 then 0 else 5) ∧
          checkOk id r = true) ∧
      (definitionFault b = none → (bit (b 0) 8 = true ∨ kindAlways (fld (b 0) 7 0) = true) →
        (∀ o ∈ s.dev.pe.queue, o.id ≠ id) → prioTaken s.dev < ((s.dev.pe.plan.map (·.commandable)).getD 0) →
        ∃ d r, exec (.pointDefine c) s =
            .next (replied 0x0101 c (okWith (wd (2147483648 + prioTaken s.dev))) d s) ∧ recOf d id = some r ∧
          r.kind = fld (b 0) 7 0 ∧ r.cov = b 4 ∧ r.link = wd (2147483648 + prioTaken s.dev) ∧ commandable r = true ∧
          r.value = b 8 ∧ checkOk id r = true)) ∧
    (Ready 0x0A01 c s → 1048576 ≤ id → exec (.trendDefine c) s = .next (replied 0x0A01 c (badField 0x08) (fresh s) s)) ∧
    (∀ t, Ready 0x0A01 c s → id < 1048576 → 32 ≤ (trim c).bufLen → b 0 = 0x7FFFFF#32 →
      Tab.find s.dev.pe.trends id = some t → ∃ d, exec (.trendDefine c) s = .next (replied 0x0A01 c ok d s) ∧
        d.pe.trends = Tab.del s.dev.pe.trends id) ∧
    (∀ o, Ready 0x0A01 c s → id < 1048576 → 32 ≤ (trim c).bufLen → b 0 ≠ 0x7FFFFF#32 → trendFault (trim c).buf = some o →
      exec (.trendDefine c) s = .next (replied 0x0A01 c (badBuf o) (fresh s) s)) ∧
    (Ready 0x0A01 c s → id < 1048576 → 32 ≤ (trim c).bufLen → b 0 ≠ 0x7FFFFF#32 → trendFault (trim c).buf = none →
      (recOf s.dev (b 0).toNat).isSome = true →
      let t := trendOfBuf (trim c).buf
      let all := (Tab.put s.dev.pe.trends id t).map Prod.snd
      tooFast all = false → 16 * (all.map (·.capacity)).sum ≤ trendBytes s.dev →
      (trendCov t = true → subsFree (dropTrendSubs id (fresh s)) ≠ 0) →
      ∃ d t', exec (.trendDefine c) s = .next (replied 0x0A01 c (okWith (wd t.capacity)) d s) ∧
        Tab.find d.pe.trends id = some t' ∧ t'.point = t.point ∧ t'.mode = t.mode ∧ t'.period = t.period ∧
        t'.phase = t.phase ∧ t'.capacity = t.capacity) ∧
    (Ready 0x0A02 c s → id < 1048576 → Tab.find s.dev.pe.trends id = none →
      exec (.trendRead c) s = .next (replied 0x0A02 c (fail 0x0400 c.target) (fresh s) s)) ∧
    (∀ t, Ready 0x0A02 c s → id < 1048576 → Tab.find s.dev.pe.trends id = some t → 16 * c.count.toNat ≤ (trim c).bufLen →
      let ss := samplesFrom t c.p0.toNat c.count.toNat
      exec (.trendRead c) s = .next (replied 0x0A02 c (okWith (wd ss.length) (wd t.total))
        (hostWrite c.bufAddr (ss.flatMap sampleBytes) (fresh s)) s))

/-! ## Loops -/

/-- FABRIC_LOOP_TICK, LOOP_EVALUATION_START, LOOP_OVERRUN (parts of R91, R92, R97, R107, R108, R112). A running loop whose
period comes round at c:0 is queued with that stamp; one that still waits merges it and counts OVERRUN. At throttle level 6
or 7 a solo loop enters THERMAL_HOLD without waiting, and the odd tick of a roped one is not run and counts STRETCH. A loop
that is not active takes no tick. A loop that may start, on an engine that takes it, with none ahead of it and the point
engine serving, takes its waiting tune, its tick and the engine; without a tick it does not start. A fabric loop that waits
past the start of the next cycle counts OVERRUN; one that does not wait changes nothing. -/
def Obligations.LoopTicks : Prop :=
  ∀ (i : Nat) (r : LoopRef) (e : Fin 4) (l : Loop) (s : State),
    (loopOf s.dev ⟨false, i⟩ = some l → l.st = 2 → l.stopping = false →
      periodicDue l.prog (now s.dev).cycle.toNat = true →
      (hotLevel s.dev = false → ∃ t m, exec (.fabricLoopTick i) s = .next t ∧ loopOf t.dev ⟨false, i⟩ = some m ∧
        m.due = some ⟨(now s.dev).cycle, 0#16⟩ ∧ m.st = 2 ∧ m.prog = l.prog ∧
        m.overrun = (if l.due.isSome then min 4294967295 (l.overrun + 1) else l.overrun)) ∧
      (hotLevel s.dev = true → l.prog.roped = false → ∃ t m, exec (.fabricLoopTick i) s = .next t ∧
        loopOf t.dev ⟨false, i⟩ = some m ∧ m.due = none ∧ m.st = 4) ∧
      (hotLevel s.dev = true → l.prog.roped = true → l.woken = false →
        tickNumber l.prog (now s.dev).cycle.toNat % 2 ≠ 0 → ∃ t m, exec (.fabricLoopTick i) s = .next t ∧
        loopOf t.dev ⟨false, i⟩ = some m ∧ m.due = l.due ∧ m.stretch = min 4294967295 (l.stretch + 1))) ∧
    (loopOf s.dev ⟨false, i⟩ = some l → loopActive l = false →
      exec (.fabricLoopTick i) s = .next (after s (settle (fresh s)))) ∧
    (∀ tick, loopOf s.dev r = some l → l.due = some tick → mayStart s.dev l = true →
      engineTakes s.dev l.prog e.val = true → pipesServe s.dev = true → outranked r l e.val s.dev = false →
      ∃ t m x, exec (.loopEvaluationStart r e) s = .next t ∧ loopOf t.dev r = some m ∧ m.due = none ∧ m.tuned = none ∧
        m.prog = l.tuned.getD l.prog ∧ m.lastTick = tick ∧ m.running = some x ∧ x.tick = tick ∧ x.engine = e.val) ∧
    (loopOf s.dev r = some l → l.due = none → exec (.loopEvaluationStart r e) s = .next (after s (settle (fresh s)))) ∧
    (loopOf s.dev r = some l → l.due.isSome = true → l.late = false → r.fast = false →
      exec (.loopOverrun r) s = .next (after s
        (putLoop r { l with late := true, overrun := min 4294967295 (l.overrun + 1) } (fresh s)))) ∧
    (loopOf s.dev r = some l → l.due = none → exec (.loopOverrun r) s = .next (after s (fresh s)))

/-- What a cluster's part hands on of one write: the point, value, quality and level with a check that covers them, stamped
when the part ended, from the loop on that cluster, under the claim the cluster held then (R98, R100). -/
def issued (r : LoopRef) (c : Cluster) (claim : Half) (ended : Stamp) (w : LoopWrite) (s : State) (o : PointOp) : Prop :=
  o.id = w.id ∧ o.act = .write w.value w.quality (some (pointCheck w.id w.value w.quality w.kind)) w.prio ∧
  o.stamp = ended ∧ o.source = loopSource s.dev r c ∧ o.claim = claim ∧ o.loop = some r

/-- LOOP_EVALUATION_END, PEER_RESULT_ARRIVAL, PEER_RESULT_TIMEOUT of a loop that neither a stop nor a swap waits for (parts
of R98–R103). A solo loop at work ends its evaluation and hands its writes, with what its engine's error has made of them, to
the point engine's queue or, behind a full one, to their hold; of a roped one each cluster ends its part, and nothing goes out. When
both parts are there in time the evaluation is over, the owner's writes go out, and a difference counts a mismatch and gives
the other cluster the owner's copy. A cluster that waits in vain counts MISSING once, and hands on its own writes if it owned
at its end. Of a part that is not there, has ended, or whose engine is not at work, there is no end; a cluster that does not
wait times out nothing. -/
def Obligations.LoopResults : Prop :=
  ∀ (r : LoopRef) (c : Cluster) (u : Option Word) (l : Loop) (x : Running) (s : State),
    loopOf s.dev r = some l → l.running = some x → l.stopping = false → l.swapDue = false →
    (∀ p, partOf x c = some p → p.done = false → atWork s.dev r c x.engine = true →
      (l.prog.roped = false → shadow s.dev l.prog = false →
        ∃ t m, exec (.loopEvaluationEnd r c u) s = .next t ∧ loopOf t.dev r = some m ∧ m.running = none ∧
          m.lastDone = now s.dev ∧ copyOf m c = p.copy ∧
          ∀ w ∈ upsetWrites u p.writes, ∃ o ∈ t.dev.pe.queue ++ t.dev.pe.held,
            issued r c (writeClaim s.dev c) (now s.dev) w s o) ∧
      (l.prog.roped = true →
        ∃ t m y q, exec (.loopEvaluationEnd r c u) s = .next t ∧ loopOf t.dev r = some m ∧ m.running = some y ∧
          partOf y c = some q ∧ q.done = true ∧ q.ended = now s.dev ∧ q.own = decide (c = computeOwner s.dev) ∧
          q.writes = upsetWrites u p.writes ∧ copyOf m c = p.copy ∧ t.dev.pe = s.dev.pe)) ∧
    (partOf x c = none ∨ ((partOf x c).map (·.done)).getD false = true ∨ atWork s.dev r c x.engine = false →
      exec (.loopEvaluationEnd r c u) s = .next (after s (fresh s))) ∧
    (∀ a b cl v, x.a = some a → x.b = some b → a.done = true → b.done = true → a.missing = false → b.missing = false →
      (∀ k due, peerDue s.dev r k = some due → later v due = false) → NoneDue false v s →
      ownPart s.dev a b = some cl → shadow s.dev l.prog = false →
      let own := if cl = .a then a else b
      let other := if cl = .a then b else a
      ∃ t m, exec (.peerResultArrival r v) s = .next t ∧ loopOf t.dev r = some m ∧ m.running = none ∧
        (∀ w ∈ own.writes, ∃ o ∈ t.dev.pe.queue ++ t.dev.pe.held, issued r cl own.claim own.ended w s o) ∧
        (allMatch l.prog.tolerance own.writes other.writes = true → m.mismatch = l.mismatch) ∧
        (allMatch l.prog.tolerance own.writes other.writes = false →
          m.mismatch = min 4294967295 (l.mismatch + 1) ∧ copyOf m (clOther cl) = own.copy)) ∧
    (∀ p q due, partOf x c = some p → partOf x (clOther c) = some q → p.missing = false → q.missing = false →
      peerDue s.dev r c = some due → s.pending.any (peerBeaten r due) = false → NoneDue true due s →
      shadow s.dev l.prog = false →
      ∃ t m, exec (.peerResultTimeout r c) s = .next t ∧ loopOf t.dev r = some m ∧
        m.missing = min 4294967295 (l.missing + 1) ∧
        (p.own = true → ∀ w ∈ p.writes, ∃ o ∈ t.dev.pe.queue ++ t.dev.pe.held, issued r c p.claim p.ended w s o)) ∧
    (peerDue s.dev r c = none → exec (.peerResultTimeout r c) s = .next (after s (fresh s)))

/-- LOOP_LOAD, LOOP_START, LOOP_STOP, LOOP_READ_STATE, LOOP_TUNE, LOOP_SWAP (parts of R87, R90, R104–R106, R110–R113, R359,
R364). A sound image that fits is loaded into an entry that is empty or STOPPED and answers its size; one that fails a check
answers that failure. A loop that is LOADED or STOPPED starts with blank registers unless a block's target or the engines'
capacity forbids it, a fast one once its tick group has an entry, and answers the first due cycle. A stop of an active loop
takes effect at once where no evaluation is open, and else waits for its end and ends in the loop's completion; a waiting
swap is off. A read of the state answers it with 320 bytes of counts and registers. A sound tune of an active loop waits for
its next evaluation, of another it takes effect. A sound swap of an active loop that none waits for waits for its tick. Start,
stop, tune and swap of an entry without a loop are CONFLICT, as are those in a state that does not allow them. -/
def Obligations.LoopCommands : Prop :=
  ∀ (c : HostCmd) (r : LoopRef) (s : State),
    (∀ p, Ready 0x0201 c s → (loopTarget true c.target s.dev).1 = some r →
      ((loopOf s.dev r).map (·.st)).getD 3 = 3 → checkImage r (trim c) = .inl p →
      loopFits (progSize p) (((loopOf s.dev r).map fun l => progSize l.prog).getD 0) s.dev = true →
      exec (.loopLoad c) s = .next (replied 0x0201 c (okWith (wd (progSize p))) (putLoop r (blankLoop p) (fresh s)) s)) ∧
    (∀ x, Ready 0x0201 c s → (loopTarget true c.target s.dev).1 = some r → loopOf s.dev r = none →
      checkImage r (trim c) = .inr x → exec (.loopLoad c) s = .next (replied 0x0201 c x (fresh s) s)) ∧
    ((loopTarget false c.target s.dev).1 = some r → loopOf s.dev r = none →
      (Ready 0x0202 c s → exec (.loopStart c) s = .next (replied 0x0202 c (fail 0x0401) (fresh s) s)) ∧
      (Ready 0x0203 c s → exec (.loopStop c) s = .next (replied 0x0203 c (fail 0x0401) (fresh s) s)) ∧
      (Ready 0x0205 c s → exec (.loopTune c) s = .next (replied 0x0205 c (fail 0x0401) (fresh s) s)) ∧
      (Ready 0x0206 c s → exec (.loopSwap c) s = .next (replied 0x0206 c (fail 0x0401) (fresh s) s))) ∧
    ((loopTarget false c.target s.dev).1 = some r → ∀ l, loopOf s.dev r = some l →
      (Ready 0x0202 c s → (l.st = 1 ∨ l.st = 3) →
        (∀ x, (startFault l.prog s.dev).or (admission true r l.prog (0, 1) s.dev) = some x →
          exec (.loopStart c) s = .next (replied 0x0202 c x (countRefusal x (fresh s)) s)) ∧
        ((startFault l.prog s.dev).or (admission true r l.prog (0, 1) s.dev) = none →
          let go := { blankLoop l.prog with st := 2, lastEngine := l.lastEngine }
          (r.fast = false → exec (.loopStart c) s = .next (replied 0x0202 c (okWith (firstCycle l.prog s.dev))
            (putLoop r go (fresh s)) s)) ∧
          (∀ d, r.fast = true → joinGroup r.idx l.prog (fresh s) = some d →
            exec (.loopStart c) s = .next (replied 0x0202 c (okWith (firstCycle l.prog d)) (putLoop r go d) s)))) ∧
      (Ready 0x0202 c s → l.st ≠ 1 → l.st ≠ 3 →
        exec (.loopStart c) s = .next (replied 0x0202 c (fail 0x0401) (fresh s) s)) ∧
      (Ready 0x0203 c s → loopActive l = true → evalOpen l = false →
        ∃ d m, exec (.loopStop c) s = .next (replied 0x0203 c (okWith 3#32) d s) ∧ loopOf d r = some m ∧
          m.st = 3 ∧ m.due = none ∧ m.running = none ∧ m.next = none) ∧
      (Ready 0x0203 c s → loopActive l = true → evalOpen l = true →
        ∃ d m, exec (.loopStop c) s = .next (awaiting 0x0203 c d s) ∧ loopOf d r = some m ∧
          m.stopping = true ∧ m.due = none ∧ m.next = none ∧ m.stopCmd = some (trim c)) ∧
      (Ready 0x0203 c s → loopActive l = false →
        exec (.loopStop c) s = .next (replied 0x0203 c (fail 0x0401) (fresh s) s)) ∧
      (Ready 0x0204 c s → 320 ≤ (trim c).bufLen →
        exec (.loopReadState c) s = .next (replied 0x0204 c (okWith (wd l.st)) (hostWrite c.bufAddr
          (wordsBytes (stateWords l.st (some l) (copyNamed s.dev l (bit c.p0 0)))) (fresh s)) s)) ∧
      (∀ p, Ready 0x0205 c s → 1 ≤ c.count.toNat → c.count.toNat ≤ 256 → 8 * c.count.toNat ≤ (trim c).bufLen →
        tuneAll (trim c).buf c.count.toNat 0 (l.tuned.getD l.prog) = .inl p →
        stageChanged (l.tuned.getD l.prog) p = false → tunedFault (trim c).buf c.count.toNat p = none →
        (loopActive l = true →
          exec (.loopTune c) s = .next (replied 0x0205 c ok (putLoop r { l with tuned := some p } (fresh s)) s)) ∧
        (loopActive l = false → exec (.loopTune c) s = .next (replied 0x0205 c ok
          (putLoop r { l with prog := p, a := tuneCopy l.prog p l.a, b := tuneCopy l.prog p l.b } (fresh s)) s))) ∧
      (∀ p, Ready 0x0206 c s → loopActive l = true → l.st ≠ 5 → checkImage r (trim c) = .inl p →
        loopFits (progSize p) 0 s.dev = true → guardedWrites p s.dev = false →
        admission false r p (reservedRate l.prog) s.dev = none →
        exec (.loopSwap c) s = .next (awaiting 0x0206 c
          (putLoop r { l with st := 5, next := some p, swapCmd := some (trim c) } (fresh s)) s)) ∧
      (Ready 0x0206 c s → (loopActive l = false ∨ l.st = 5) →
        exec (.loopSwap c) s = .next (replied 0x0206 c (fail 0x0401) (fresh s) s)))

/-! ## Zones -/

/-- ZONE_STEP and ZONE_SKIPPED (parts of R141–R143, R158, R160). A zone that has stopped, or none of whose due seconds
waits, stays as it is. The due step of a sound zone, whose engines and point engine are in service and that no other step
comes before, runs: its second is served, the merged count is cleared and the record stamped. One of a zone whose RCHECK
fails stops the zone and keeps its words. Due seconds passed over by a step that has not started are merged and counted, and
no point changes. -/
def Obligations.ZoneSteps : Prop :=
  ∀ (zid : Nat) (upset : Bool) (z : Zone) (s : State), zoneOf s.dev zid = some z →
    (z.stopped = true ∨ dueSec s.dev zid z = none →
      exec (.zoneStep zid upset) s = .next (after s (fresh s)) ∧ exec (.zoneSkipped zid) s = .next (after s (fresh s))) ∧
    (∀ sec, z.stopped = false → dueSec s.dev zid z = some sec →
      (zoneEngines s.dev zid z ≠ [] → (zoneEngines s.dev zid z).any (fun c => testing s.dev (unitZone c)) = false →
        pipesServe s.dev = true → stepWaits s.dev zid sec (zoneEngines s.dev zid z) = false →
        (z.sound = true → ∃ t y, exec (.zoneStep zid upset) s = .next t ∧ zoneOf t.dev zid = some y ∧
          y.stepped = true ∧ y.merged = 0 ∧ y.at' = now s.dev ∧ y.served = sec ∧ y.stopped = false ∧ y.edit = none) ∧
        (z.sound = false → ∃ t y, exec (.zoneStep zid upset) s = .next t ∧ zoneOf t.dev zid = some y ∧
          y.stopped = true ∧ y.words = z.words ∧ y.served = sec)) ∧
      (stepWaits s.dev zid sec (zoneEngines s.dev zid z) = true →
        exec (.zoneStep zid upset) s = .next (after s (fresh s))) ∧
      (passedOver z sec = 0 → exec (.zoneSkipped zid) s = .next (after s (fresh s))) ∧
      (passedOver z sec ≠ 0 → ∃ t y, exec (.zoneSkipped zid) s = .next t ∧ zoneOf t.dev zid = some y ∧
        y.merged = z.merged + passedOver z sec ∧ y.served = sec - zStep z ∧ y.words = z.words ∧
        t.dev.zones.skipped = satAdd 4294967295 s.dev.zones.skipped (passedOver z sec) ∧ t.dev.pe = s.dev.pe))

/-- ZONE_DEFINE, ZONE_READ, ZONE_NEIGHBOURS, ZONE_WEATHER, ZONE_FORECAST (parts of R138, R140, R141, R153, R154, R159,
R364). A configuration that passes every check makes a new zone at once, with its model as at the start; of a zone that has
stepped it waits for the next step. The neighbours of a zone that steps wait likewise; of one that does not they change at
once, and nothing else does. Reads answer the quantity asked for; a forecast answers its base, its optimal times and its
quality. All but ZONE_DEFINE and ZONE_WEATHER fail NOT_FOUND for a zone that is none. A site takes its two points, its start
and its rows. -/
def Obligations.ZoneCommands : Prop :=
  ∀ (c : HostCmd) (s : State),
    let zid := c.target.toNat
    let b := (trim c).buf
    let ws := cfgOffsets.foldl (fun t o => Tab.put t (o / 4) (wordAt b o)) []
    let new : Zone := { words := ws }
    (Ready 0x0301 c s → zoneCount s.dev ≤ zid →
      exec (.zoneDefine c) s = .next (replied 0x0301 c (fail 0x0302 (wd zid)) (fresh s) s)) ∧
    (Ready 0x0301 c s → zid < zoneCount s.dev → 512 ≤ (trim c).bufLen → byteAt b 3 = 1 →
      (∀ o, zoneFault zid new = some o → exec (.zoneDefine c) s = .next (replied 0x0301 c (badBuf o) (fresh s) s)) ∧
      (zoneFault zid new = none → zoneMissing s.dev new = none → zoneConflict s.dev new = none →
        (zoneFits zid new s.dev = false →
          exec (.zoneDefine c) s = .next (replied 0x0301 c (fail 0x0302) (fresh s) s)) ∧
        (zoneFits zid new s.dev = true →
          (zoneOf s.dev zid = none → exec (.zoneDefine c) s = .next (replied 0x0301 c ok
            (putZone zid { initModel new with served := runSec s.dev } (fresh s)) s)) ∧
          (∀ z, zoneOf s.dev zid = some z →
            (z.stepped = true → z.stopped = false → exec (.zoneDefine c) s = .next (replied 0x0301 c ok
              (putZone zid { z with edit := some ws } (fresh s)) s)) ∧
            ((z.stepped = false ∨ z.stopped = true) → exec (.zoneDefine c) s = .next (replied 0x0301 c ok
              (putZone zid (restartModel z new) (endDiverts zid (fresh s))) s)))))) ∧
    (∀ z, namedZone c s.dev = some z →
      let ns := (List.range 8).foldl (fun t k => Tab.put t (0x1F + k) (wordAt b (4 * k))) (cfgWords z)
      (Ready 0x0303 c s → 32 ≤ (trim c).bufLen →
        (∀ o, zoneFault zid { words := ns } = some o →
          exec (.zoneNeighbours c) s = .next (replied 0x0303 c (badBuf (o - 0x7C)) (fresh s) s)) ∧
        (zoneFault zid { words := ns } = none → zoneMissing s.dev { words := ns } = none →
          (z.stepped = true → z.stopped = false → exec (.zoneNeighbours c) s = .next (replied 0x0303 c ok
            (putZone zid { z with edit := some ns } (fresh s)) s)) ∧
          ((z.stepped = false ∨ z.stopped = true) → ∃ d y, exec (.zoneNeighbours c) s = .next (replied 0x0303 c ok d s) ∧
            d = putZone zid y (fresh s) ∧ (∀ k, k < 8 → zWord y (0x7C + 4 * k) = wordAt b (4 * k)) ∧
            (∀ o, (o < 0x7C ∨ 0x9C ≤ o) → zWord y o = zWord z o) ∧ y.stopped = z.stopped ∧ y.stepped = z.stepped))) ∧
      (Ready 0x0302 c s → (fld c.p0 7 0 ≤ 5 ∨ fld c.p0 7 0 = 6 ∧ fld c.p0 15 8 ≤ 192) → (trim c).bufLen = 0 →
        exec (.zoneRead c) s = .next (replied 0x0302 c
          (okWith (zoneQuantity s.dev zid c.p0).1 (wd (zoneQuantity s.dev zid c.p0).2)) (fresh s) s)) ∧
      (Ready 0x0305 c s → 1544 ≤ (trim c).bufLen → ∃ d, exec (.zoneForecast c) s = .next (replied 0x0305 c
        (okWith (zWord z 0x1D4) (zWord z 0x1E0) (wd (fcQuality z))) d s) ∧ d.zones = s.dev.zones ∧ d.pe = s.dev.pe)) ∧
    (namedZone c s.dev = none →
      (Ready 0x0302 c s → exec (.zoneRead c) s = .next (replied 0x0302 c (fail 0x0400 c.target) (fresh s) s)) ∧
      (Ready 0x0303 c s → exec (.zoneNeighbours c) s = .next (replied 0x0303 c (fail 0x0400 c.target) (fresh s) s)) ∧
      (Ready 0x0305 c s → exec (.zoneForecast c) s = .next (replied 0x0305 c (fail 0x0400 c.target) (fresh s) s))) ∧
    (Ready 0x0304 c s → zid < 16 → c.count.toNat ≤ 192 → 16 + 8 * c.count.toNat ≤ (trim c).bufLen →
      (wordAt b 0).toNat < 8388608 → (wordAt b 4).toNat < 8388608 → (wordAt b 8).toNat % 900 = 0 → wordAt b 12 = 0#32 →
      ∃ d x, exec (.zoneWeather c) s = .next (replied 0x0304 c ok d s) ∧ Tab.find d.zones.sites zid = some x ∧
        x.outdoor = (wordAt b 0).toNat ∧ x.solar = (wordAt b 4).toNat ∧ x.start = wordAt b 8 ∧
        x.rows = (List.range c.count.toNat).map (fun k => (wordAt b (16 + 8 * k), wordAt b (20 + 8 * k))) ∧
        d.zones.zones = s.dev.zones.zones)

/-! ## Clock and schedules -/

/-- The RTC counts seconds (R170, R171, R173): from a calendar date on, k increments taken from the queue advance the wall
time by k and leave a calendar date, up to the last second of the year field. -/
def Obligations.WallTimeCountsSeconds : Prop :=
  ∀ (k : Nat) (rest : List Instr) (s : State), s.pending = List.replicate k .rtcIncrement ++ rest →
    clkOn s.dev = true → halted s.dev = false → oddDate s.dev.clk.now = false →
    daysTo s.dev.clk.now * 86400 + todOf s.dev.clk.now + k < daysToMonth 256 1 * 86400 →
    ∃ t, steps k s = some t ∧ t.pending = rest ∧ wallTime t.dev = wallTime s.dev + wd k ∧
      oddDate t.dev.clk.now = false ∧ halted t.dev = false

/-- R171: the month lengths, the dates that are none, and the weekday that counts by itself: the increment at the last
second of a day, and a write of a date field, which leaves the weekday. -/
def Obligations.MonthLengths : Prop :=
  ∀ (p : Path) (x : RtcField) (v : Word) (s : State),
    let f := s.dev.clk.now
    let len := if f.month ∈ [1, 3, 5, 7, 8, 10, 12, 0, 13, 14, 15] then 31 else if f.month ∈ [4, 6, 9, 11] then 30
      else if f.year % 4 = 0 then 29 else 28
    let last := f.day = len ∨ f.day = 31
    let rolls := last ∧ (f.month = 12 ∨ f.month = 15)
    (clkOn s.dev = true → halted s.dev = false → f.sec = 59 → f.min = 59 → f.hour = 23 → f.month < 16 →
      ∃ t, exec .rtcIncrement s = .next t ∧ t.dev.clk.now =
        { sec := 0, min := 0, hour := 0, day := if last then 1 else f.day + 1
          month := if rolls then 1 else if last then f.month + 1 else f.month
          year := if rolls then (if f.year = 255 then 0 else f.year + 1) else f.year
          wday := if f.wday = 0 ∨ f.wday = 7 then 1 else f.wday + 1 }) ∧
    (x ≠ .wday → ∃ t, exec (.rtcFieldWrite p x v) s = .next t ∧ t.dev.clk.now.wday = f.wday)

/-- RTC_INCREMENT, RTC_HALT, RTC_RELEASE, RTC_FIELD_WRITE, RTC_SUBSEC_READ (parts of R166–R168, R170, R175); RTC_WAKE_WRITE,
WAKE, BK_BYTE31_WRITE, MAINS_DISC_WINDOW_END, BACKUP_SUPPLY_SWITCH, BACKUP_DOMAIN_POWER_UP, OSCILLATOR_32K_STOP (parts of
R163, R164, R177, R178, R180, R438). A running clock counts a second and its sub-second count starts again; without a supply
or under HALT it does not. HALT keeps the fields; its release starts the count from zero and makes written fields VALID.
A field write under HALT lands, else it sets WRERR. A read of the sub-second count answers it and latches the fields for
its path; under HALT the count holds, else it runs on (log entry 7 leaves open by how much). A window of mains discipline
that has run 86,400 s adjusts the trim where the timebase is LOCKED and closes where it is not. -/
def Obligations.RtcAndBackup : Prop :=
  (∀ (p : Path) (x : RtcField) (v : Word) (s : State),
     (clkOn s.dev = true → halted s.dev = false →
       ∃ t, exec .rtcIncrement s = .next t ∧ t.dev.clk.now = nextSec s.dev.clk.now ∧ t.dev.clk.subsec = 0 ∧
         t.dev.clk.frozen = s.dev.clk.frozen ∧ t.dev.clk.trim = s.dev.clk.trim) ∧
     ((clkOn s.dev = false ∨ halted s.dev = true) → exec .rtcIncrement s = .next (after s (fresh s))) ∧
     (halted s.dev = false → ∃ t, exec .rtcHalt s = .next t ∧ halted t.dev = true ∧ t.dev.clk.now = s.dev.clk.now ∧
       t.dev.clk.frozen = s.dev.clk.now ∧ t.dev.clk.written = false ∧ t.dev.clk.discOpen = false ∧
       t.dev.clk.status = s.dev.clk.status ∧ t.dev.clk.trim = s.dev.clk.trim) ∧
     (halted s.dev = true → exec .rtcHalt s = .next (after s (fresh s))) ∧
     (halted s.dev = true → ∃ t, exec .rtcRelease s = .next t ∧ halted t.dev = false ∧ t.dev.clk.now = s.dev.clk.now ∧
       t.dev.clk.subsec = 0 ∧ (s.dev.clk.written = true → rtcValid t.dev = true)) ∧
     (halted s.dev = false → exec .rtcRelease s = .next (after s (settle (fresh s)))) ∧
     (halted s.dev = false → exec (.rtcFieldWrite p x v) s = .next (after s (settle
       { fresh s with clk := { s.dev.clk with status := setBit s.dev.clk.status 0 true } }))) ∧
     (halted s.dev = true → ∃ t, exec (.rtcFieldWrite p x v) s = .next t ∧
       t.dev.clk.now = rtcPutField x v.toNat s.dev.clk.now ∧ t.dev.clk.written = true ∧ t.dev.clk.ctrl = s.dev.clk.ctrl ∧
       snapOf t.dev p = rtcPutField x v.toNat (snapOf s.dev p) ∧ (∀ q, q ≠ p → snapOf t.dev q = snapOf s.dev q)) ∧
     (∃ t, exec (.rtcSubsecRead p) s = .next t ∧ t.dev.outbox = [.readData (wd t.dev.clk.subsec)] ∧
       snapOf t.dev p = s.dev.clk.now ∧ t.dev.clk.now = s.dev.clk.now ∧ (∀ q, q ≠ p → snapOf t.dev q = snapOf s.dev q) ∧
       s.dev.clk.subsec ≤ t.dev.clk.subsec ∧ (halted s.dev = true → t.dev.clk.subsec = s.dev.clk.subsec))) ∧
  (∀ (v : Word) (aon vbak : Nat) (s : State),
     exec (.rtcWakeWrite v) s = .next (after s { fresh s with clk := { s.dev.clk with wake := v &&& 0xCFFF#32 } }) ∧
     exec (.bkByte31Write v) s = .next (after s { fresh s with clk := { s.dev.clk with
       byte31 := (s.dev.clk.byte31 &&& 0xFFFFFFF0#32) ||| (v &&& 0x0F#32) } }) ∧
     exec .backupDomainPowerUp s = .next (after s { fresh s with clk := {} }) ∧
     exec .oscillator32kStop s = .next (after s { fresh s with power := { s.dev.power with osc32 := false } }) ∧
     ((clkOn s.dev = false ∨ fld s.dev.clk.wake 11 0 = 0) → exec .wake s = .next (after s (fresh s))) ∧
     (clkOn s.dev = true → fld s.dev.clk.wake 11 0 ≠ 0 → ∃ t, exec .wake s = .next t ∧ bit t.dev.clk.status 3 = true ∧
       t.dev.clk.now = s.dev.clk.now ∧ (bit s.dev.clk.byte31 2 = true → bit t.dev.clk.byte31 3 = true ∧
         pwrOn t.dev = true ∧ bit t.dev.clk.byte31 7 = (s.dev.clk.almAt != some (now s.dev))) ∧
       (bit s.dev.clk.byte31 2 = false → t.dev.clk.byte31 = s.dev.clk.byte31)) ∧
     ((s.dev.clk.discOpen = false ∨ bit s.dev.clk.ctrl 8 = false ∨ s.dev.clk.discSecs < 86400) →
       exec .mainsDiscWindowEnd s = .next (after s (fresh s))) ∧
     (s.dev.clk.discOpen = true → bit s.dev.clk.ctrl 8 = true → 86400 ≤ s.dev.clk.discSecs →
       (s.dev.tb.st ≠ .locked → exec .mainsDiscWindowEnd s = .next (after s { fresh s with clk := { s.dev.clk with
         discOpen := false, discSecs := 0 } })) ∧
       (s.dev.tb.st = .locked → exec .mainsDiscWindowEnd s = .next (after s { fresh s with clk := { s.dev.clk with
         trim := (disciplined s.dev.clk.trim (s.dev.tb.cycle - s.dev.clk.discCycle).toNat).getD s.dev.clk.trim
         discOpen := true, discSecs := 0, discCycle := s.dev.tb.cycle } }))) ∧
     (∃ t, exec (.backupSupplySwitch aon vbak) s = .next t ∧ t.dev.clk.now = s.dev.clk.now ∧
       bit t.dev.clk.status 6 = t.dev.clk.onVbak ∧ t.dev.clk.absent = (s.dev.clk.absent || decide (aon = 0 ∧ vbak = 0)) ∧
       (s.dev.clk.onVbak = false → t.dev.clk.onVbak = decide (aon < vbak ∨ aon < 2700)) ∧
       (s.dev.clk.onVbak = true → t.dev.clk.onVbak = !decide (2760 < aon ∧ vbak + 60 < aon))))


/-- RTC_GET, RTC_SET, RTC_TRIM (parts of R166, R168, R179, R364). RTC_GET answers the wall time, the date and the time
with ODD_DATE, and latches the fields for its path. RTC_SET leaves the seven fields as given, the clock running from zero
and VALID, and answers the new wall time. RTC_TRIM sets the trim, and is CONFLICT while mains discipline is on. -/
def Obligations.TimeCommands : Prop :=
  ∀ (c : HostCmd) (s : State),
    (Ready 0x0401 c s → exec (.rtcGet c) s = .next (replied 0x0401 c (okWith (wallTime s.dev) (dateWord s.dev.clk.now)
      (wd ((timeWord s.dev.clk.now).toNat + fld s.dev.clk.status 8 0 * 8388608)))
      (latchFields .lk (fresh s)) s)) ∧
    (Ready 0x0402 c s → ∃ d, exec (.rtcSet c) s = .next (replied 0x0402 c (okWith (wallTime d)) d s) ∧
      d.clk.now = { sec := fld c.p1 5 0, min := fld c.p1 13 8, hour := fld c.p1 20 16, day := fld c.p0 12 8
                    wday := fld c.p0 2 0, month := fld c.p0 19 16, year := fld c.p0 31 24 } ∧
      halted d = false ∧ rtcValid d = true ∧ d.clk.subsec = 0) ∧
    (Ready 0x0403 c s → bit s.dev.clk.ctrl 8 = true →
      exec (.rtcTrim c) s = .next (replied 0x0403 c (fail 0x0401) (fresh s) s)) ∧
    (Ready 0x0403 c s → bit s.dev.clk.ctrl 8 = false → exec (.rtcTrim c) s = .next (replied 0x0403 c ok
      { fresh s with clk := { s.dev.clk with trim := wd (fld c.p0 9 0) } } s))

/-- SCHEDULE_EVALUATION, SCHED_LOAD, SCHED_READ, CAL_LOAD, LOCALTIME_LOAD (parts of R136, R181–R183, R185–R187). While no
valid time lets schedules run an evaluation does nothing; else every schedule holds the value of its program, but for one
that keeps its value in a repeated hour, and a schedule whose value changed writes it to its target. A sound program, table
of a calendar or rule of local time is held as loaded, the program with the minutes to its next change as the answer. -/
def Obligations.Schedules : Prop :=
  ∀ (c : HostCmd) (s : State),
    let n := c.target.toNat
    let b := (trim c).buf
    (schedRuns s.dev = false → exec .scheduleEvaluation s = .next (after s (settle (fresh s)))) ∧
    (schedRuns s.dev = true → ∃ t, exec .scheduleEvaluation s = .next t ∧
      ∀ m x, Tab.find s.dev.sched.scheds m = some x → ∃ y, Tab.find t.dev.sched.scheds m = some y ∧
        y.target = x.target ∧ y.days = x.days ∧ y.excs = x.excs ∧
        (x.present.isSome = true → inRepeat (ruleOf s.dev x.rule) (utcNow s.dev) = true → y = x) ∧
        ((x.present = none ∨ inRepeat (ruleOf s.dev x.rule) (utcNow s.dev) = false) →
          y.present = some (presentAt s.dev x (utcNow s.dev)))) ∧
    (∀ x, schedRuns s.dev = true → s.dev.sched.scheds = [(n, x)] →
      (x.present = none ∨ inRepeat (ruleOf s.dev x.rule) (utcNow s.dev) = false) →
      x.present ≠ some (presentAt s.dev x (utcNow s.dev)) →
      ∃ t o, exec .scheduleEvaluation s = .next t ∧ o ∈ t.dev.pe.queue ++ t.dev.pe.held ∧
        o.id = x.target ∧ o.source = srcWord 5 n ∧
        (presentAt s.dev x (utcNow s.dev) = nullWord → o.act = .relinquish x.prio) ∧
        (presentAt s.dev x (utcNow s.dev) ≠ nullWord → ∃ v q, o.act = .write v q none x.prio)) ∧
    (∀ r, Ready 0x0404 c s → n < 4096 → 0x20 ≤ (trim c).bufLen → byteAt b 0 = 1 →
      let ex := excsAt b (byteAt b 3) (dayOffset b 7)
      ex.2 ≤ (trim c).bufLen → crc32c (zero4 (b.take ex.2) 0x1C) = wordAt b 0x1C → schedFault b ex.1 = none →
      recOf s.dev (fld (wordAt b 4) 22 0) = some r →
      (isPredef (fld (wordAt b 4) 22 0) = false ∨ commandable r = true) →
      loopFits (up64 ex.2) (((Tab.find s.dev.sched.scheds n).map (·.size)).getD 0) s.dev = true →
      ∃ d y, exec (.schedLoad c) s = .next (replied 0x0404 c (okWith (wd (minutesTo s.dev y))) d s) ∧
        Tab.find d.sched.scheds n = some y ∧ y.prio = byteAt b 1 ∧ y.rule = byteAt b 2 ∧
        y.target = fld (wordAt b 4) 22 0 ∧ y.dflt = wordAt b 8 ∧ y.excs = ex.1.map Prod.snd ∧
        y.days = (List.range 7).map (fun k => transAt b (dayOffset b k) (dayCount b k)) ∧
        y.present = none ∧ d.pe = s.dev.pe) ∧
    (Ready 0x0405 c s → n < 4096 → fld c.p0 1 0 ≠ 3 → exec (.schedRead c) s = .next (replied 0x0405 c
      (okWith (schedRead s.dev n (fld c.p0 1 0)).1 (wd (schedRead s.dev n (fld c.p0 1 0)).2)) (fresh s) s)) ∧
    (Ready 0x0406 c s → n < 64 → 512 ≤ (trim c).bufLen →
      (∀ i, i < 64 → calEntryFault (wordAt b (8 * i)) (wordAt b (8 * i + 4)) = none) →
      ∃ d, exec (.calLoad c) s = .next (replied 0x0406 c ok d s) ∧
        Tab.find d.sched.cals n = some ((List.range 128).map fun i => wordAt b (4 * i))) ∧
    (Ready 0x0407 c s → n + c.count.toNat ≤ 16 → n < 16 → 16 * c.count.toNat ≤ (trim c).bufLen →
      (∀ i, i < c.count.toNat → ruleFault ((List.range 4).map fun j => wordAt b (16 * i + 4 * j)) = none) →
      ∃ d, exec (.localtimeLoad c) s = .next (replied 0x0407 c ok d s) ∧ ∀ i, i < c.count.toNat →
        Tab.find d.sched.rules (n + i) = some ((List.range 4).map fun j => wordAt b (16 * i + 4 * j)))

/-! ## Converters and universal inputs -/

/-- SINC_WORD, ADC_PWM_TRIGGER, ADC_TIMER_TRIGGER, URGENT_CONVERSION_END (parts of R197–R200, R202–R204, R207, R210, R211,
R213). With `d` the device after the occurrences that an arrival passes: a word outside a slot lands nowhere; the words of
settling come invalid with the number still to come; the next one of a slot without a notch ends its conversion, VALID where
its reference is good, with its stamp, OVR where nobody took the last, and not yet forwarded, and invalid with the
reference's state where it is not. A word of a notch slot joins its bin; the boundary that ends a full window gives the mean
of the window's words, stamped at the boundary. An enabled trigger starts the next enabled slot of an idle converter, waits
for a busy one, and is lost and counted where one waits already; a retired converter takes none. The end of an urgent
conversion answers the IO_READ_NOW that asked for it, else only lets the converter go on. -/
def Obligations.Conversions : Prop :=
  (∀ (c : Fin 4) (raw : Int) (clip : Option Bool) (st : Stamp) (s : State),
    let d := arriveField st (fresh s)
    let a := adcOf d c.val
    ((∀ n, a.run ≠ .slot n) → (a.run ≠ .idle ∨ a.lastConf = none) →
      exec (.sincWord c raw clip st) s = .next (after s d)) ∧
    (∀ n, a.run = .slot n → ((bit (slotFilt a n) 23 = false ∧ 0 < a.settle) ∨ 1 < a.settle) →
      ∃ t, exec (.sincWord c raw clip st) s = .next t ∧ (adcOf t.dev c.val).settle = a.settle - 1 ∧
        (adcOf t.dev c.val).run = .slot n ∧ slotRes (adcOf t.dev c.val) n = resWord (resValue (slotRes a n)) false
          (bit (slotRes a n) 6) (a.settle - 1) (refState d a (slotRef (slotCfg a n)))) ∧
    (∀ n, a.run = .slot n → bit (slotFilt a n) 23 = false → a.settle = 0 →
      (refState d a (slotRef (slotCfg a n)) = 0 →
        ∃ t, exec (.sincWord c raw clip st) s = .next t ∧ slotRes (adcOf t.dev c.val) n =
          resWord (wordValue d a (slotGain (slotCfg a n)) raw clip).1 true
            (bit (slotRes a n) 6 || decide (Tab.get 0 a.fresh n ≠ 0)) 0 0 ∧
          Tab.find (adcOf t.dev c.val).stamps n = some st ∧ Tab.get 0 (adcOf t.dev c.val).unsent n ≠ 0) ∧
      (refState d a (slotRef (slotCfg a n)) ≠ 0 →
        ∃ t, exec (.sincWord c raw clip st) s = .next t ∧ slotRes (adcOf t.dev c.val) n = resWord (resValue (slotRes a n))
          false (bit (slotRes a n) 6) 0 (refState d a (slotRef (slotCfg a n))))) ∧
    (∀ n x, a.run = .slot n → bit (slotFilt a n) 23 = true → a.settle ≤ 1 → a.notch = some x →
      let m := notchBins (slotFilt a n)
      let w := window m (x.cur + 1) x
      (binOf m st ≤ x.cur → ∃ t, exec (.sincWord c raw clip st) s = .next t ∧
        (adcOf t.dev c.val).notch = some (addBin m (binOf m st) raw clip x) ∧ (adcOf t.dev c.val).res = a.res) ∧
      (∀ o, x.cur < binOf m st → a.settle = 0 → x.opened = some o → o + m ≤ x.cur + 1 → w.2.1 ≠ 0 →
        refState d a (slotRef (slotCfg a n)) = 0 →
        ∃ t, exec (.sincWord c raw clip st) s = .next t ∧ slotRes (adcOf t.dev c.val) n =
          resWord (meanValue d a (slotGain (slotCfg a n)) w.1 w.2.1 w.2.2).1 true
            (bit (slotRes a n) 6 || decide (Tab.get 0 a.fresh n ≠ 0)) 0 0 ∧
          Tab.find (adcOf t.dev c.val).stamps n = some (binStart m (x.cur + 1)))) ∧
    (urgentOf a.run = none → exec (.urgentConversionEnd c raw clip st) s = .next (after s d)) ∧
    (∀ u k, a.run = .urgent u k → (∀ n h, u ≠ .readNow n h) →
      exec (.urgentConversionEnd c raw clip st) s = .next (after s (setAdc c.val (afterUrgent k a) d))) ∧
    (∀ n h k, a.run = .urgent (.readNow n (some h)) k → ∃ e, exec (.urgentConversionEnd c raw clip st) s =
      .next (after s (finish 0x0502 h (readNowDone (readNowWord d a n raw clip).1
        (readNowWord d a n raw clip).2.1 st) e)) ∧ adcOf e c.val = afterUrgent k a)) ∧
  (∀ (bank : Fin 8) (c k : Nat) (adc : Fin 4) (w : Word) (cmd : Instr) (s : State),
    let a := adcOf s.dev c
    (cmd = .adcPwmTrigger bank ∧ c = 2 + bank.val / 4 ∧ w = Tab.get 0#32 a.pwmTrig (bank.val % 4)) ∨
      (cmd = .adcTimerTrigger adc ∧ c = adc.val ∧ w = a.timer) →
    (bit w 31 = false ∨ retired s.dev (unitAdc c) = true → exec cmd s = .next (after s (fresh s))) ∧
    (bit w 31 = true → retired s.dev (unitAdc c) = false →
      (a.run = .idle → nextSlot a (fld w 29 24) = some k →
        ∃ t, exec cmd s = .next t ∧ (adcOf t.dev c).run = .slot k ∧ (adcOf t.dev c).res = a.res ∧
          (confKey (slotCfg a k) (slotFilt a k) ∈ a.lastConf → (adcOf t.dev c).settle = 0) ∧
          (confKey (slotCfg a k) (slotFilt a k) ∉ a.lastConf → (adcOf t.dev c).settle = settleWords (slotFilt a k))) ∧
      (a.run ≠ .idle → a.pending = none →
        exec cmd s = .next (after s (setAdc c { a with pending := some (fld w 29 24) } (fresh s)))) ∧
      (a.run ≠ .idle → a.pending.isSome = true → exec cmd s = .next (after s (setAdc c { a with
        trigLost := up16 a.trigLost, status := setBit a.status 9 true } (fresh s))))))

/-- REF_CHECK, REF_READY, RESULT_REGISTER_READ, RESULT_HALF_READ, UI_LEVEL_ACCEPTED, CAL_STAGE_END (parts of R194, R196,
R197, R211–R213, R215). The check judges both references by their limits, and one gone bad sets REF_FAULT at every converter.
A read takes the word, a read of the low half latches the high half, and the read of that answers the latch. An accepted
level of a dry contact goes to its point with its stamp, where the die link is down into the field die's keeping; an edge of
a pulse input counts; in any other mode the level is only noted. A stage of a calibration that is not held is kept and goes
on to the next gain, or, at the fifth, puts the ten results in force where all lie in their limits; else CAL_FAIL stands and
nothing of them is in force. Without a stage under way, or held, the end of one changes nothing. -/
def Obligations.InputsAndReferences : Prop :=
  ∀ (c : Fin 4) (slot : Fin 64) (n : Fin 48) (closed : Bool) (st : Stamp) (v w : Word) (zero ref : Int) (s : State),
    let a := adcOf s.dev c.val
    (∃ t, exec (.refCheck v w) s = .next t ∧
      t.dev.inp.extGood = F32.le (F32.abs (F32.sub v s.dev.inp.vrefExt)) (F32.mul s.dev.inp.vrefExt (F32.rat 2 100)) ∧
      t.dev.inp.ratioGood = (F32.le (F32.rat 475 100) w && F32.le w (F32.rat 525 100)) ∧
      ((s.dev.inp.extGood = true ∧ t.dev.inp.extGood = false ∨ s.dev.inp.ratioGood = true ∧ t.dev.inp.ratioGood = false) →
        bit (adcOf t.dev c.val).status 10 = true)) ∧
    exec .refReady s = .next (after s { fresh s with inp := { s.dev.inp with refReady := true } }) ∧
    exec (.resultRegisterRead c slot) s = .next (after s
      { setAdc c.val { a with
          res := Tab.set 1#32 a.res slot.val (setBit (slotRes a slot.val) 6 false)
          fresh := Tab.set 0 a.fresh slot.val 0 } (fresh s) with outbox := [.readData (slotRes a slot.val)] }) ∧
    exec (.resultHalfRead c slot false) s = .next (after s
      { setAdc c.val { a with latch := hw (fld (slotRes a slot.val) 31 16), latchSlot := some slot.val } (fresh s) with
        outbox := [.readData (wd (fld (slotRes a slot.val) 15 0))] }) ∧
    (∃ t, exec (.resultHalfRead c slot true) s = .next t ∧ t.dev.outbox = [.readData (wd a.latch.toNat)] ∧
      (adcOf t.dev c.val).latchSlot = none ∧ t.dev.pe = s.dev.pe ∧
      (a.latchSlot = some slot.val → Tab.get 0 (adcOf t.dev c.val).fresh slot.val = 0 ∧
        slotRes (adcOf t.dev c.val) slot.val = setBit (slotRes a slot.val) 6 false) ∧
      (a.latchSlot ≠ some slot.val → (adcOf t.dev c.val).fresh = a.fresh ∧ (adcOf t.dev c.val).res = a.res)) ∧
    (let d := arriveField st (fresh s)
     let u := uiOf d n.val
     (uiMode u = 5 → ∃ t o k, exec (.uiLevelAccepted n closed st) s = .next t ∧
       o ∈ (if d.link.coreLost then t.dev.pe.heldField else t.dev.pe.queue ++ t.dev.pe.held) ∧
       (uiOf t.dev n.val).level = closed ∧ o.id = 0x4FF000 + n.val ∧ o.stamp = st ∧
       o.act = .write (F32.ofBool (closed != bit u.cfg 14)) 0 (some k) 0) ∧
     (uiMode u = 6 → u.level ≠ closed → closed ≠ bit u.cfg 14 →
       exec (.uiLevelAccepted n closed st) s = .next (after s (setUi n.val { u with
         level := closed, count := (u.count + 1) % 16777216, edge := some st } d))) ∧
     ((uiMode u < 5 ∨ 6 < uiMode u ∨ uiMode u = 6 ∧ (u.level = closed ∨ closed = bit u.cfg 14)) →
       exec (.uiLevelAccepted n closed st) s = .next (after s (setUi n.val { u with level := closed } d)))) ∧
    ((∀ g, a.run ≠ .cal g false) → exec (.calStageEnd c zero ref) s = .next (after s (fresh s))) ∧
    (calHeld c.val s.dev = true → exec (.calStageEnd c zero ref) s = .next (after s (fresh s))) ∧
    (∀ g, a.run = .cal g false → calHeld c.val s.dev = false →
      let new := Tab.put a.calNew g (wd (unsgn 24 zero), calGain zero ref)
      (g < 4 → a.urgents = [] → exec (.calStageEnd c zero ref) s = .next (after s (setAdc c.val { a with
        calNew := new, run := .cal (g + 1) false } (fresh s)))) ∧
      (4 ≤ g → new.all (fun p => calOk p.2) = true → ∃ t, exec (.calStageEnd c zero ref) s = .next t ∧
        (adcOf t.dev c.val).calibrated = true ∧
        (adcOf t.dev c.val).offset = new.foldl (fun t p => Tab.set 0#32 t p.1 p.2.1) a.offset ∧
        (adcOf t.dev c.val).gain = new.foldl (fun t p => Tab.set 0x3F800000#32 t p.1 p.2.2) a.gain) ∧
      (4 ≤ g → new.all (fun p => calOk p.2) = false → ∃ t, exec (.calStageEnd c zero ref) s = .next t ∧
        bit (adcOf t.dev c.val).status 11 = true ∧ (adcOf t.dev c.val).calibrated = a.calibrated ∧
        (adcOf t.dev c.val).offset = a.offset ∧ (adcOf t.dev c.val).gain = a.gain))

/-! ## Coil banks -/

/-- COIL_WRITE_DELIVERY, COIL_PWM_PERIOD, PULL_IN_END, MOTION_DIP, RELEASE_END, DEFER_TIMEOUT, DUTY_SUBWINDOW_END (parts of
R219–R223, R225–R228, R231, R232). A finite command that passes the gates at an enabled channel: in HOLD it sets the target,
at once without a rate, and 0 releases; in OFF or RELEASE one above 0 starts the pull-in where the supply is good, no limit
is passed, no pull-in of the bank is in progress and no angle is asked for; in FAULT the channel stays. Without a delivery
nothing happens. A PWM period keeps its samples for the I² integral and, in HOLD, moves integrator and duty by the loop's
rule. The end of a pull-in enters HOLD, or RELEASE for a command of 0, and ends no other state; by the dip only where the
channel asks for it and saw one. Samples that show a dip give the motion word and, for the point, the time and its stamp.
RELEASE ends OFF; a deferral that times out is OFF with code 8; a sub-window's sums enter the window of sixteen. -/
def Obligations.CoilEvents : Prop :=
  ∀ (ch : Fin 48) (w : Word) (samples : List Word) (codes : List Nat) (why : PullEnd) (s : State),
    let c := chanOf s.dev ch.val
    let now' := fun (t : State) => chanOf t.dev ch.val
    (∀ d, popDelivery (predefBase + coilPoint ch.val 0) (fresh s) = (none, d) →
      exec (.coilWriteDelivery ch) s = .next (after s (fresh s))) ∧
    (∀ x d, popDelivery (predefBase + coilPoint ch.val 0) (fresh s) = (some x, d) → x.refresh = false →
      gates ch.val x d = none → F32.finite x.value = true → chEnabled c = true →
      (c.st = 3 → F32.gt (limitCmd x.value) F32.zero = true → F32.isZero (rateOf d x.id) = true →
        x.id = predefBase + coilPoint ch.val 0 → ∃ t, exec (.coilWriteDelivery ch) s = .next t ∧ (now' t).st = 3 ∧
          (now' t).target = limitCmd x.value ∧ (now' t).x = limitCmd x.value) ∧
      (c.st = 3 → F32.gt (limitCmd x.value) F32.zero = false →
        ∃ t, exec (.coilWriteDelivery ch) s = .next t ∧ (now' t).st = 4 ∧ (now' t).lastDuty = c.duty) ∧
      (c.st = 0 ∨ c.st = 4 → F32.gt (limitCmd x.value) F32.zero = true → c.armed = false → chAngle c = false →
        s.dev.coil.vdrvGood = true → overLimit s.dev c = false → pullingIn s.dev (ch.val / 6) = none →
        ∃ t, exec (.coilWriteDelivery ch) s = .next t ∧ (now' t).st = 2 ∧ (now' t).target = limitCmd x.value ∧
          (now' t).pullStart = some (fieldNow s.dev)) ∧
      (c.st = 5 → ∃ t, exec (.coilWriteDelivery ch) s = .next t ∧ (now' t).st = 5 ∧ (now' t).diag = c.diag)) ∧
    (let c1 := addSamples samples { c with measured := w, periods := (c.periods + 1) % max 1 (pwmHz s.dev ch.val) }
     (c.st ≠ 3 → ∃ t, exec (.coilPwmPeriod ch w samples) s = .next t ∧ now' t = c1 ∧ t.dev.pe = s.dev.pe) ∧
     (c.st = 3 → ∃ t, exec (.coilPwmPeriod ch w samples) s = .next t ∧ t.dev.pe = s.dev.pe ∧
       let fs := fullScale c
       let iset := quant12 (F32.clamp (F32.add (setpoint c) (dither s.dev ch.val c1)) F32.zero fs) fs
       let e := F32.div (F32.sub iset w) fs
       now' t = { c1 with
         integ := F32.clamp (F32.add c.integ (F32.mul (F32.div (F32.ofNat (fld c.loop 7 0)) (F32.ofNat 65536)) e))
           F32.zero F32.one
         duty := F32.clamp (F32.add (F32.mul (F32.div (F32.ofNat (fld c.loop 15 8)) (F32.ofNat 64)) e) (now' t).integ)
           F32.zero (F32.rat 98 100) })) ∧
    ((c.st ≠ 2 ∨ why = .motion ∧ (bit c.cfg 17 = false ∨ c.dipSeen = false)) →
      exec (.pullInEnd ch why) s = .next (after s (fresh s))) ∧
    (c.st = 2 → (why = .motion → bit c.cfg 17 = true ∧ c.dipSeen = true) →
      ∃ t, exec (.pullInEnd ch why) s = .next t ∧ (now' t).target = c.queued.getD c.target ∧ (now' t).queued = none ∧
        (now' t).pullStart = none ∧
        (now' t).st = (if F32.isZero (c.queued.getD c.target) && !c.failSafe then 4 else 3)) ∧
    (c.st ≠ 2 → exec (.motionDip ch codes) s = .next (after s (fresh s))) ∧
    (c.st = 2 →
      let d := arriveField (pullStamp ch.val codes.length (fresh s)) (fresh s)
      let e := chanOf d ch.val
      (∀ us, e.st = 2 → bit e.cfg 16 = true → e.noDetect = false → e.dipSeen = false →
        dipTime (1000 * fld e.cfg 15 8) codes = some us →
        let p := pullStamp ch.val us d
        ∃ t o k, exec (.motionDip ch codes) s = .next t ∧
          (now' t).motion = wd (p.angle.toNat * 65536 + min 65535 (nearest us 10)) ∧ (now' t).dipSeen = true ∧
          (now' t).st = 2 ∧ o ∈ (if d.link.coreLost then t.dev.pe.heldField else t.dev.pe.queue ++ t.dev.pe.held) ∧
          o.id = 0x4FF000 + coilPoint ch.val 2 ∧ o.stamp = p ∧ o.act = .write (F32.rat us 1000) 0 (some k) 0) ∧
      (dipTime (1000 * fld e.cfg 15 8) codes = none → exec (.motionDip ch codes) s = .next (after s d))) ∧
    (c.st = 4 → exec (.releaseEnd ch) s = .next (after s (setChan ch.val { c with st := 0 } (fresh s)))) ∧
    (c.st = 1 → exec (.releaseEnd ch) s = .next (after s (setChan ch.val { c with noDetect := false } (fresh s)))) ∧
    (c.st ≠ 4 → c.st ≠ 1 → exec (.releaseEnd ch) s = .next (after s (setChan ch.val c (fresh s)))) ∧
    (c.st = 1 → c.failSafe = false → ∃ t, exec (.deferTimeout ch) s = .next t ∧ (now' t).st = 0 ∧ (now' t).diag = 8 ∧
      (now' t).request = none ∧ (now' t).waiting = []) ∧
    ((c.st ≠ 1 ∨ c.failSafe = true) → exec (.deferTimeout ch) s = .next (after s (fresh s))) ∧
    exec (.dutySubwindowEnd ch) s = .next (after s (setChan ch.val { c with
      window := capList 16 (c.window ++ [(c.partAc + pulledAc s.dev c, c.partI2)]), partAc := 0, partI2 := F32.zero
      pullStart := if c.st = 2 then some (fieldNow s.dev) else none } (fresh s)))

/-- SHORT_SUP_ON, SHORT_GND_ON, OPEN_ON, BANK_OC, BANK_SUPPLY, OFF_STATE_TEST, DIAGNOSTIC_CYCLE_END, VDRV_UNDERVOLTAGE,
VDRV_RECOVERED (parts of R217, R233, R234, R236, R431). A channel's fault latches it in FAULT with its code; SHORT_GND_ON and
OPEN_ON only in PULL_IN or HOLD. A bank's fault turns its energised channels off with the bank's code, BANK_OC its deferred
ones too. A bank that is on is not tested; one that is off latches each enabled channel by its node, or all with code 2, and
the bank with 12, where the short is on the bank node. A diagnostic cycle latches the fault it finds, and one that finds none
returns a channel from FAULT to OFF, but where its node is not up, which makes the channel SUSPECT. -/
def Obligations.CoilFaults : Prop :=
  ∀ (ch : Fin 48) (b : Fin 8) (mv : Nat) (nodes : List Nat) (stay : List Bool) (r : DiagReading) (s : State),
    let c := chanOf s.dev ch.val
    let now' := fun (t : State) => chanOf t.dev ch.val
    (c.st = 5 → exec (.shortSupOn ch) s = .next (after s (fresh s))) ∧
    (c.st ≠ 5 → ∃ t, exec (.shortSupOn ch) s = .next t ∧ (now' t).st = 5 ∧ (now' t).diag = 4 ∧ (now' t).queued = none ∧
      (now' t).waiting = []) ∧
    ((c.st = 2 ∨ c.st = 3) →
      (∃ t, exec (.shortGndOn ch) s = .next t ∧ (now' t).st = 5 ∧ (now' t).diag = 5) ∧
      (∃ t, exec (.openOn ch) s = .next t ∧ (now' t).st = 5 ∧ (now' t).diag = 6)) ∧
    (c.st ≠ 2 → c.st ≠ 3 → exec (.shortGndOn ch) s = .next (after s (fresh s)) ∧
      exec (.openOn ch) s = .next (after s (fresh s))) ∧
    (∃ t, exec (.bankOc b) s = .next t ∧ (bankOf t.dev b.val).diag = 10 ∧
      ∀ k, k ∈ bankChans b.val → (energised (chanOf s.dev k).st = true ∨ (chanOf s.dev k).st = 1) →
        (chanOf t.dev k).st = 0 ∧ (chanOf t.dev k).diag = 10) ∧
    (∃ t, exec (.bankSupply b) s = .next t ∧ (bankOf t.dev b.val).diag = 11 ∧
      ∀ k, k ∈ bankChans b.val → energised (chanOf s.dev k).st = true →
        (chanOf t.dev k).st = 0 ∧ (chanOf t.dev k).diag = 11) ∧
    (((bankChans b.val).any fun k => (chanOf s.dev k).st != 0 && (chanOf s.dev k).st != 5) = true →
      exec (.offStateTest b mv nodes stay) s = .next (after s (fresh s))) ∧
    (((bankChans b.val).any fun k => (chanOf s.dev k).st != 0 && (chanOf s.dev k).st != 5) = false →
      ∃ t, exec (.offStateTest b mv nodes stay) s = .next t ∧
        ((∃ n, n < 6 ∧ stay.getD n false = false) → ∀ n k, n < 6 → offCode (nodes.getD n 0) mv = some k →
          chEnabled (chanOf s.dev (6 * b.val + n)) = true → (chanOf s.dev (6 * b.val + n)).st = 0 →
          (k = 1 ∨ k = 3 ∨ k = 2 ∧ stay.getD n false = true →
            (chanOf t.dev (6 * b.val + n)).st = 5 ∧ (chanOf t.dev (6 * b.val + n)).diag = k) ∧
          (k = 0 → (chanOf t.dev (6 * b.val + n)).st = 0 ∧ (chanOf t.dev (6 * b.val + n)).suspect = false)) ∧
        ((∀ n, n < 6 → stay.getD n false = true) → (∃ n, n < 6 ∧ offCode (nodes.getD n 0) mv = some 2) →
          (bankOf t.dev b.val).diag = 12 ∧ ∀ k, k ∈ bankChans b.val → chEnabled (chanOf s.dev k) = true →
            (chanOf t.dev k).st = 5 ∧ (chanOf t.dev k).diag = 2)) ∧
    (Tab.find s.dev.integ.tests (unitChan ch.val) = none →
      (∀ k, (diagVerdict s.dev ch.val r).1 = some k → (k ≠ 2 ∨ r.allLow = false) →
        ∃ t, exec (.diagnosticCycleEnd ch r) s = .next t ∧ (now' t).st = 5 ∧ (now' t).diag = k) ∧
      ((diagVerdict s.dev ch.val r).1 = some 2 → r.allLow = true →
        ∃ t, exec (.diagnosticCycleEnd ch r) s = .next t ∧ (bankOf t.dev (ch.val / 6)).diag = 12 ∧
          ∀ k, k ∈ bankChans (ch.val / 6) → chEnabled (chanOf s.dev k) = true →
            (chanOf t.dev k).st = 5 ∧ (chanOf t.dev k).diag = 2) ∧
      ((diagVerdict s.dev ch.val r).1 = none → c.st = 5 → (diagVerdict s.dev ch.val r).2 = false →
        ∃ t, exec (.diagnosticCycleEnd ch r) s = .next t ∧ (now' t).st = 0 ∧ (now' t).diag = 0) ∧
      ((diagVerdict s.dev ch.val r).1 = none → (c.st ≠ 5 ∨ (diagVerdict s.dev ch.val r).2 = true) →
        ∃ t, exec (.diagnosticCycleEnd ch r) s = .next t ∧ (now' t).st = c.st ∧ (now' t).diag = c.diag ∧
          (now' t).suspect = (diagVerdict s.dev ch.val r).2)) ∧
    (∃ t, exec .vdrvUndervoltage s = .next t ∧ t.dev.coil.vdrvGood = false ∧ t.dev.power.vdrvGood = false ∧
      (energised c.st = true → (now' t).st = 0 ∧ (now' t).diag = 11)) ∧
    (∃ t, exec .vdrvRecovered s = .next t ∧ t.dev.coil.vdrvGood = true ∧ t.dev.power.vdrvGood = true ∧
      (c.st ≠ 1 → (now' t).st = c.st))

/-! ## Other outputs and sensor buses -/

/-- AO_WRITE_DELIVERY, TG_WRITE_DELIVERY, FAN_WRITE_DELIVERY, AO_SHORT, ENVELOPE_SLEW_UPDATE, TG_ZERO_CROSSING, TACH_EDGE,
FAN_STALL (parts of R222, R243–R250, R288, R384). A finite value that passes the gates at an enabled stage without a rate: an
analogue output takes it limited to its span with its code, a fan its duty, a gate output holds it for the next crossing.
An update moves a NORMAL, enabled stage by its rate, and no other. At a crossing a gate output that is off, or whose stage
does not act, fires nothing; one whose LOCK_REQ is not met shows NOLOCK and fires nothing; else the held value comes into
force and in phase mode the entry gets its firing angle, or none where the value asks for none; in zero-cross mode the
accumulator decides the cycle at the rising crossing. An edge more than 200 µs after the last counts; a stall of a driven fan
clears its speed. A short is noted. -/
def Obligations.OutputStages : Prop :=
  (∀ (n : Fin 16) (k : Fin 8) (x : Delivery) (us : Nat) (s : State),
     (popDelivery (aoId n.val) (fresh s) = (none, fresh s) → exec (.aoWriteDelivery n) s = .next (after s (fresh s))) ∧
     (popDelivery (tgId n.val) (fresh s) = (none, fresh s) → exec (.tgWriteDelivery n) s = .next (after s (fresh s))) ∧
     (popDelivery (fanId k.val) (fresh s) = (none, fresh s) → exec (.fanWriteDelivery k) s = .next (after s (fresh s))) ∧
     (∀ d, popDelivery (aoId n.val) (fresh s) = (some x, d) → x.refresh = false → gates (48 + n.val) x d = none →
       F32.finite x.value = true → bit (aoOf s.dev n.val).cfg 0 = true → F32.isZero (rateOf s.dev (aoId n.val)) = true →
       ∃ t, exec (.aoWriteDelivery n) s = .next t ∧
         (aoOf t.dev n.val).applied = aoSpan (aoOf s.dev n.val) x.value ∧
         (aoOf t.dev n.val).code = aoCode (aoSpan (aoOf s.dev n.val) x.value) ∧ t.dev.coil = s.dev.coil) ∧
     (∀ d, popDelivery (tgId n.val) (fresh s) = (some x, d) → x.refresh = false → gates (64 + n.val) x d = none →
       F32.finite x.value = true → bit (tgOf s.dev n.val).cfg 0 = true →
       ∃ t, exec (.tgWriteDelivery n) s = .next t ∧ (tgOf t.dev n.val).held = some x.value ∧
         (tgOf t.dev n.val).angle = (tgOf s.dev n.val).angle) ∧
     (∀ d, popDelivery (fanId k.val) (fresh s) = (some x, d) → x.refresh = false → gates (80 + k.val) x d = none →
       F32.finite x.value = true → bit (fanOf s.dev k.val).cfg 0 = true → F32.isZero (rateOf s.dev (fanId k.val)) = true →
       ∃ t, exec (.fanWriteDelivery k) s = .next t ∧
         (fanOf t.dev k.val).duty = fanDuty (fanTarget (fanOf s.dev k.val) x.value)) ∧
     exec (.aoShort n) s = .next (after s (setAo n.val { aoOf s.dev n.val with short := true } (fresh s))) ∧
     (let v := slewTo (aoOf s.dev n.val).applied (aoOf s.dev n.val).target (rateOf s.dev (aoId n.val)) us
      stageState s.dev (48 + n.val) = 0 → bit (aoOf s.dev n.val).cfg 0 = true →
        exec (.envelopeSlewUpdate (.ao n) us) s = .next (after s
          (setAo n.val { aoOf s.dev n.val with applied := v, code := aoCode v } (fresh s)))) ∧
     (stageState s.dev (48 + n.val) ≠ 0 → exec (.envelopeSlewUpdate (.ao n) us) s = .next (after s (fresh s))) ∧
     (let v := slewTo (fanOf s.dev k.val).applied (fanOf s.dev k.val).target (rateOf s.dev (fanId k.val)) us
      stageState s.dev (80 + k.val) = 0 → bit (fanOf s.dev k.val).cfg 0 = true →
        exec (.envelopeSlewUpdate (.fan k) us) s = .next (after s
          (driveFan k.val (setFan k.val { fanOf s.dev k.val with applied := v, duty := fanDuty v } (fresh s))))) ∧
     (stageState s.dev (80 + k.val) ≠ 0 → exec (.envelopeSlewUpdate (.fan k) us) s = .next (after s (fresh s))) ∧
     (∀ ch : Fin 48, (stageState s.dev ch.val = 0 → (chanOf s.dev ch.val).st = 3 →
       exec (.envelopeSlewUpdate (.coil ch) us) s = .next (after s (setChan ch.val { chanOf s.dev ch.val with
         x := slewTo (chanOf s.dev ch.val).x (chanOf s.dev ch.val).target
           (rateOf s.dev (predefBase + coilPoint ch.val 0)) us } (fresh s)))) ∧
       ((stageState s.dev ch.val ≠ 0 ∨ (chanOf s.dev ch.val).st ≠ 3) →
         exec (.envelopeSlewUpdate (.coil ch) us) s = .next (after s (fresh s)))) ∧
     (stageState s.dev (64 + n.val) = 0 → bit (tgOf s.dev n.val).cfg 0 = true →
       exec (.envelopeSlewUpdate (.tg n) us) s = .next (after s (setTg n.val { tgOf s.dev n.val with
         value := slewTo (tgOf s.dev n.val).value (tgOf s.dev n.val).target (rateOf s.dev (tgId n.val)) us } (fresh s)))) ∧
     (stageState s.dev (64 + n.val) ≠ 0 → exec (.envelopeSlewUpdate (.tg n) us) s = .next (after s (fresh s)))) ∧
  (∀ (n : Fin 16) (rising : Bool) (k : Fin 8) (us : Nat) (s : State),
     let d := arriveField ⟨s.dev.tb.cycle,
       hw ((tgZc (tgOf s.dev n.val) + if rising then 0 else 32768) % 65536)⟩ (fresh s)
     let x := tgOf d n.val
     let f := fanOf s.dev k.val
     ((bit x.cfg 0 = false ∨ 2 ≤ stageState d (64 + n.val)) →
       ∃ t, exec (.tgZeroCrossing n rising) s = .next t ∧ (tgOf t.dev n.val).angle = 32768 ∧
         (tgOf t.dev n.val).value = x.value ∧ (tgOf t.dev n.val).held = x.held) ∧
     (bit x.cfg 0 = true → stageState d (64 + n.val) < 2 → bit x.cfg 2 = true → d.tb.st ≠ .locked →
       ∃ t, exec (.tgZeroCrossing n rising) s = .next t ∧ (tgOf t.dev n.val).nolock = true ∧
         (tgOf t.dev n.val).angle = 32768 ∧ (tgOf t.dev n.val).acc = 0#32) ∧
     (bit x.cfg 0 = true → stageState d (64 + n.val) = 0 → (bit x.cfg 2 = false ∨ d.tb.st = .locked) →
       F32.isZero (rateOf d (tgId n.val)) = true →
       let v := x.held.getD x.target
       let acc := F32.add x.acc (tgFraction v)
       (∀ a, bit x.cfg 1 = false → tgDelay x v = some a → ∃ t, exec (.tgZeroCrossing n rising) s = .next t ∧
         (tgOf t.dev n.val).angle = a ∧ (tgOf t.dev n.val).value = v ∧ (tgOf t.dev n.val).held = none ∧
         (tgOf t.dev n.val).nolock = false ∧ ∀ i, x.entry = some i → ∃ e, Tab.find t.dev.tb.entries i = some e ∧
           e.w0 = wd (2147483648 + 1048576 + 131072 + (tgZc x + a) % 65536) ∧ e.occ = stPlus (fieldNow d) a) ∧
       (bit x.cfg 1 = false → tgDelay x v = none → ∃ t, exec (.tgZeroCrossing n rising) s = .next t ∧
         (tgOf t.dev n.val).angle = 32768 ∧ (tgOf t.dev n.val).value = v) ∧
       (bit x.cfg 1 = true → rising = true → ∃ t, exec (.tgZeroCrossing n rising) s = .next t ∧
         (tgOf t.dev n.val).value = v ∧ (tgOf t.dev n.val).firing = F32.ge acc F32.one ∧
         (F32.ge acc F32.one = true → (tgOf t.dev n.val).acc = F32.sub acc F32.one ∧
           (tgOf t.dev n.val).angle = tgMin x) ∧
         (F32.ge acc F32.one = false → (tgOf t.dev n.val).acc = acc ∧ (tgOf t.dev n.val).angle = 32768)) ∧
       (bit x.cfg 1 = true → rising = false → ∃ t, exec (.tgZeroCrossing n rising) s = .next t ∧
         (tgOf t.dev n.val).value = v ∧ (tgOf t.dev n.val).acc = x.acc ∧
         (tgOf t.dev n.val).angle = if x.firing then tgMin x else 32768)) ∧
     (bit f.cfg 1 = true → 200 < us → exec (.tachEdge k us) s = .next (after s
       (setFan k.val { f with edges := capList 4 (f.edges ++ [us]), stall := false } (fresh s)))) ∧
     ((us ≤ 200 ∨ bit f.cfg 1 = false) → exec (.tachEdge k us) s = .next (after s (fresh s))) ∧
     (bit f.cfg 1 = true → f.duty ≠ 0 → exec (.fanStall k) s = .next (after s
       (setFan k.val { f with stall := true, rpm := 0, edges := [] } (fresh s)))) ∧
     ((bit f.cfg 1 = false ∨ f.duty = 0) → exec (.fanStall k) s = .next (after s (fresh s))))


/-- SENSOR_POLL_DUE, TRIGGER_WAIT_END, SENSOR_POLL_READ_END, POLL_RETRY, CLOCK_STRETCH_TIMEOUT (parts of R252, R253). A due
poll of an enabled template on a free bus puts its trigger, or without one its read, on the bus, as does the retry of a
failed one and, after a trigger, its read; on a bus that another read holds it waits. A due poll whose last one still waits
counts as late. A low SDA line gets the pulses and a STOP, sets STUCK and fails the poll. A read that ends with its bytes
writes each field's point with the stamp; one that ends without, with other bytes than asked for, or stretched too long, is
counted, and at the FAIL_N-th in a row every point of the template is marked FAULT. What meets no poll in progress changes
nothing. -/
def Obligations.SensorBuses : Prop :=
  ∀ (k : Fin 4) (i : Fin 16) (st : Stamp) (s : State),
    let b := busOf s.dev k.val
    let on := bit b.cfg 0 = true ∧ sbEn b i.val = true
    let addr := fld (sbWord b i.val 0) 30 24
    let first := if fld (sbWord b i.val 1) 31 24 = 0 then Output.busRead k.val addr (fld (sbWord b i.val 2) 31 24)
      else .busWrite k.val (BitVec.ofNat 8 (2 * addr) :: sbTrigger b i.val)
    (∀ l y, ¬ on → exec (.sensorPollDue k i l y) s = .next (after s (fresh s))) ∧
    (∀ l, on → Tab.find b.wait i.val ≠ some 0 → busBusy b = false → Tab.get 0 b.phase i.val = 0 →
      (∃ t, exec (.sensorPollDue k i l false) s = .next t ∧ t.dev.outbox.head? = some first ∧ t.dev.pe = s.dev.pe) ∧
      (∃ t, exec (.sensorPollDue k i l true) s = .next t ∧ (busOf t.dev k.val).stuck = true ∧
        (busOf t.dev k.val).fails = up16 b.fails ∧ t.dev.outbox.head? = some (.busClear k.val))) ∧
    (∀ l y, on → Tab.find b.wait i.val ≠ some 0 → (busBusy b = true ∨ Tab.get 0 b.phase i.val ≠ 0) →
      ∃ t, exec (.sensorPollDue k i l y) s = .next t ∧ (busOf t.dev k.val).wait = Tab.put b.wait i.val 0 ∧
        t.dev.outbox = [] ∧ (busOf t.dev k.val).late = if l then satAdd 1023 b.late 1 else b.late) ∧
    (∀ l y, on → Tab.find b.wait i.val = some 0 → exec (.sensorPollDue k i l y) s = .next (after s
      (setBus k.val { b with late := satAdd 1023 b.late 1 } (fresh s)))) ∧
    (∀ y, Tab.get 0 b.phase i.val ≠ 1 → exec (.triggerWaitEnd k i y) s = .next (after s (fresh s))) ∧
    (Tab.get 0 b.phase i.val = 1 →
      (busBusy b = false → ∃ t, exec (.triggerWaitEnd k i false) s = .next t ∧
        t.dev.outbox.head? = some (.busRead k.val addr (fld (sbWord b i.val 2) 31 24)) ∧ t.dev.pe = s.dev.pe) ∧
      (∀ y, busBusy b = true → exec (.triggerWaitEnd k i y) s = .next (after s
        (setBus k.val { b with wait := Tab.put b.wait i.val 1 } (fresh s))))) ∧
    (Tab.get 0 b.retry i.val = 1 → on → busBusy b = false → Tab.get 0 b.phase i.val = 0 →
      ∃ t, exec (.pollRetry k i false) s = .next t ∧ t.dev.outbox.head? = some first ∧ t.dev.pe = s.dev.pe) ∧
    (∀ y, (Tab.get 0 b.retry i.val ≠ 1 ∨ ¬ on) → exec (.pollRetry k i y) s = .next (after s (fresh s))) ∧
    (Tab.get 0 b.phase i.val = 0 → exec (.clockStretchTimeout k i) s = .next (after s (fresh s))) ∧
    (Tab.get 0 b.phase i.val ≠ 0 → ∃ t, exec (.clockStretchTimeout k i) s = .next t ∧
      (busOf t.dev k.val).fails = up16 b.fails) ∧
    (let d := arriveField st (fresh s)
     let b := busOf d k.val
     let waits := fun (t : State) => if d.link.coreLost then t.dev.pe.heldField else t.dev.pe.queue ++ t.dev.pe.held
     let good := fun (bs : List Byte) => bs.length = fld (sbWord b i.val 2) 31 24 ∧
       (fld (sbWord b i.val 2) 23 16 = 1 → sbCrcOk bs = true)
     (∀ bs, (Tab.get 0 b.phase i.val = 0 ∨ Tab.get 0 b.phase i.val = 1 ∧ bs.isSome = true) →
       exec (.sensorPollReadEnd k i bs st) s = .next (after s d)) ∧
     (∀ bs, (Tab.get 0 b.phase i.val ≠ 0 ∧ bs = none ∨
         Tab.get 0 b.phase i.val = 2 ∧ ∃ l, bs = some l ∧ ¬ good l) →
       ∃ t, exec (.sensorPollReadEnd k i bs st) s = .next t ∧ (busOf t.dev k.val).fails = up16 b.fails ∧
         (Tab.get 0 b.failRun i.val + 1 = sbFailN b i.val → ∀ p ∈ sbPoints b i.val,
           ∃ o ∈ waits t, o.id = p.2 ∧ o.act = .quality 3 ∧ o.source = sbSource k.val i.val)) ∧
     (∀ bs, Tab.get 0 b.phase i.val = 2 → good bs → ∃ t, exec (.sensorPollReadEnd k i (some bs) st) s = .next t ∧
       (busOf t.dev k.val).fails = b.fails ∧ Tab.get 0 (busOf t.dev k.val).failRun i.val = 0 ∧
       ∀ p ∈ sbPoints b i.val, ∃ o ∈ waits t, ∃ c, o.id = p.2 ∧ o.stamp = st ∧ o.source = sbSource k.val i.val ∧
         o.act = .write (sbValue b i.val p.1 bs) 0 (some c) 0))

/-- IO_CONFIG, IO_READ_NOW, COIL_DIAG (parts of R190, R207–R209, R213, R214, R236, R240–R242). A release frees what the host
owns, and is RESOURCE_BUSY for what another owns. A configuration fails at the first word at fault, then by what it breaks
elsewhere, then by what it cannot claim; else it is written with its claims. A read of a UI without a mode is CONFLICT; one
of a level or a count is answered at once; one of a converted UI waits for its urgent conversion, is RETIRED with its
converter, and NOT_READY where eight wait. COIL_DIAG waits for its channel's diagnostic cycle. -/
def Obligations.IoCommands : Prop :=
  ∀ (c : HostCmd) (s : State),
    (Ready 0x0501 c s → ioTarget c.target = none →
      exec (.ioConfig c) s = .next (replied 0x0501 c (badField 0x08) (fresh s) s)) ∧
    (∀ t, Ready 0x0501 c s → ioTarget c.target = some t → bit c.p0 0 = true →
      (∀ x, releaseCheck [ioRes t] ownHost s.dev = some x →
        exec (.ioConfig c) s = .next (replied 0x0501 c (claimError x) (fresh s) s)) ∧
      (releaseCheck [ioRes t] ownHost s.dev = none → ∃ d, exec (.ioConfig c) s = .next (replied 0x0501 c ok d s) ∧
        ownerOf d (ioRes t) = none ∧ d.inp = s.dev.inp ∧ d.coil = s.dev.coil)) ∧
    (∀ t, Ready 0x0501 c s → ioTarget c.target = some t → bit c.p0 0 = false →
      ((∃ k, t = .bus k) ∧ c.count.toNat ≤ 16 ∨ (∀ k, t ≠ .bus k) ∧ c.count = 0#32) →
      ioLen t (trim c) ≤ (trim c).bufLen →
      (∀ o, ioFault t (trim c) = some o → exec (.ioConfig c) s = .next (replied 0x0501 c (badBuf o) (fresh s) s)) ∧
      (∀ x, ioFault t (trim c) = none → ioConflict t (trim c) s.dev = some x →
        exec (.ioConfig c) s = .next (replied 0x0501 c x (fresh s) s)) ∧
      (∀ x, ioFault t (trim c) = none → ioConflict t (trim c) s.dev = none →
        (claimSets (ioClaims t (trim c)) (fresh s)).1 = some x →
        exec (.ioConfig c) s = .next (replied 0x0501 c (claimError x) (fresh s) s)) ∧
      (∀ d, ioFault t (trim c) = none → ioConflict t (trim c) s.dev = none →
        claimSets (ioClaims t (trim c)) (fresh s) = (none, d) →
        (∀ e, ioWrite t (trim c) d = some e → exec (.ioConfig c) s = .next (replied 0x0501 c ok e s)) ∧
        (ioWrite t (trim c) d = none → exec (.ioConfig c) s = .next (replied 0x0501 c (fail 0x0302) (fresh s) s)))) ∧
    (Ready 0x0502 c s → (∀ n, ioTarget c.target ≠ some (.ui n)) →
      exec (.ioReadNow c) s = .next (replied 0x0502 c (badField 0x08) (fresh s) s)) ∧
    (∀ n, Ready 0x0502 c s → ioTarget c.target = some (.ui n) →
      (uiMode (uiOf s.dev n) = 0 → exec (.ioReadNow c) s = .next (replied 0x0502 c (fail 0x0401) (fresh s) s)) ∧
      (5 ≤ uiMode (uiOf s.dev n) → exec (.ioReadNow c) s =
        .next (replied 0x0502 c (okWith (uiNow s.dev n) (wd (s.dev.tb.angle.toNat * 65536)) s.dev.tb.cycle) (fresh s) s)) ∧
      (1 ≤ uiMode (uiOf s.dev n) → uiMode (uiOf s.dev n) ≤ 4 → retired s.dev (unitAdc (uiAdc n)) = false →
        (∀ d, requestUrgent (uiAdc n) (.readNow n (some (trim c))) (fresh s) = some d →
          exec (.ioReadNow c) s = .next (awaiting 0x0502 c d s)) ∧
        (requestUrgent (uiAdc n) (.readNow n (some (trim c))) (fresh s) = none →
          exec (.ioReadNow c) s = .next (replied 0x0502 c (fail stNotReady) (fresh s) s))) ∧
      (1 ≤ uiMode (uiOf s.dev n) → uiMode (uiOf s.dev n) ≤ 4 → retired s.dev (unitAdc (uiAdc n)) = true →
        exec (.ioReadNow c) s = .next (replied 0x0502 c (fail 0x0501 (wd (unitAdc (uiAdc n)))) (fresh s) s))) ∧
    (Ready 0x0505 c s → 48 ≤ c.target.toNat →
      exec (.coilDiag c) s = .next (replied 0x0505 c (badField 0x08) (fresh s) s)) ∧
    (Ready 0x0505 c s → c.target.toNat < 48 → ∃ d, exec (.coilDiag c) s = .next (awaiting 0x0505 c d s) ∧
      d.coil.diagWait = s.dev.coil.diagWait ++ [(c.target.toNat, trim c)] ∧ d.coil.chans = s.dev.coil.chans)

/-! ## Ports and protocols -/

/-- FRAME_RECEIVED, RAW_FRAME_POST, PORT_LINK_CHANGE, DHCP_RENEW, PROTOCOL_CORE_SILENT (parts of R255, R256, R261, R263–R265,
R397). On a port that is not open a frame only brings the angle to its stamp. A frame of a service waits for its core, of 256
at most; past them it is dropped and counted. An ARP request for the port's address that finds the core free and nothing
waiting is answered. Any other goes to the raw queue of at most 256, or is dropped and counted while forwarding is quenched
or the Sluice closed. The oldest raw frame takes the next buffer where one is free and its ring has room. A link change is
kept, and takes an SC connection down with it. A lease granted is in use. A silent core comes under test. -/
def Obligations.PortFrames : Prop :=
  ∀ (p : Fin 24) (f : Frame) (up : Bool) (sp : BitVec 2) (k : Fin 16) (s : State),
    let x := portOf s.dev p.val
    (let d := arrive f.stamp (fresh s)
     let x := portOf d p.val
     let passes := x.isOpen = true ∧ (x.proto = 1 → f.len ≤ 1522 ∧ vlanOk x f = true)
     let next := fun y => exec (.frameReceived p f) s = .next (after s (setPort p.val y d))
     (x.isOpen = false → exec (.frameReceived p f) s = .next (after s d)) ∧
     (passes → serves x f.kind = true → x.coreQ.length < 256 →
       exec (.frameReceived p f) s = .next (after s (serveCore p.val (setPort p.val { x with
         coreQ := x.coreQ ++ [f], scUp := x.scUp || f.kind == .tlsSc && !x.held } d))) ∧
       (x.coreQ.any servedAtOnce = false → (servedAtOnce f = false ∨ x.held = true) →
         ∃ t, exec (.frameReceived p f) s = .next t ∧ (portOf t.dev p.val).coreQ = x.coreQ ++ [f] ∧
           t.dev.outbox = d.outbox) ∧
       (x.coreQ = [] → f.kind = .arp → x.held = false → x.addrOk = true →
         let b := f.data.drop (if f.vid.isSome then 18 else 14)
         byteAt b 7 = 1 → be32 b 24 = x.ip4 →
         ∃ t, exec (.frameReceived p f) s = .next t ∧ (portOf t.dev p.val).coreQ = [] ∧
           t.dev.outbox = d.outbox ++ [.ip p.val (vlanTag d p.val) .arp (be32 b 14)
             (be16 2 ++ (b.drop 24).take 4 ++ (b.drop 14).take 4)])) ∧
     (passes → serves x f.kind = true → 256 ≤ x.coreQ.length → next { x with dropCore := up16 x.dropCore }) ∧
     (passes → serves x f.kind = false → imgService x.image 6 = true → x.qFwd = false → d.hif.sluice = false →
       x.rawQ.length < 256 → next { x with rawQ := x.rawQ ++ [f] }) ∧
     (passes → serves x f.kind = false → imgService x.image 6 = true →
       (x.qFwd = true ∨ d.hif.sluice = true ∨ 256 ≤ x.rawQ.length) →
       next { x with dropRaw := up16 x.dropRaw, dropSince := up16 x.dropSince })) ∧
    (let e := freeBufs p.val (fresh s)
     let y := portOf e p.val
     let n := rawCq y.image
     (y.rawQ = [] → exec (.rawFramePost p) s = .next (after s e)) ∧
     (∀ g rest, y.rawQ = g :: rest → y.isOpen = true → (∀ u ∈ y.usedBufs, u.1 ≠ y.nextBuf) → eventRoom e n = true →
       canWrite e (rawBase y.image + 2048 * y.nextBuf) 2048 = true →
       exec (.rawFramePost p) s = .next (after s (postEvent n (rawEvent p.val y g)
         (hostWrite (rawBase y.image + 2048 * y.nextBuf) (g.data.take 2048) (setPort p.val { y with
           rawQ := rest, dropSince := 0, nextBuf := (y.nextBuf + 1) % max 1 (rawCount y.image)
           usedBufs := y.usedBufs ++ [(y.nextBuf, (cqOf e n).tail)] } e)))))) ∧
    (p.val < 8 → exec (.portLinkChange p up sp) s =
      .next (after s (setPort p.val { x with
        linkUp := up, speed := sp.toNat, scUp := x.scUp && up
        scHub := if x.scUp && !up then 1 - x.scHub else x.scHub } (fresh s)))) ∧
    (8 ≤ p.val → exec (.portLinkChange p up sp) s = .next (after s (fresh s))) ∧
    (∀ a, x.isOpen = true → imgService x.image 4 = true → x.held = false → exec (.dhcpRenew p (some a)) s =
      .next (after s (setPort p.val { x with ip4 := a, addrOk := true } (fresh s)))) ∧
    exec (.dhcpRenew p none) s = .next (after s (fresh s)) ∧
    (retired s.dev (unitCore k.val) = true → exec (.protocolCoreSilent k) s = .next (after s (fresh s))) ∧
    (retired s.dev (unitCore k.val) = false → ∃ t, exec (.protocolCoreSilent k) s = .next t ∧
      testing t.dev (unitCore k.val) = true ∧ t.dev.pe = s.dev.pe ∧ t.dev.loops = s.dev.loops ∧
      (x.isOpen = true → x.core = k.val → (portOf t.dev p.val).held = true))

/-- BACNET_REQUEST, MODBUS_SERVER_REQUEST, MODBUS_POLL_DUE, MODBUS_POLL_REPLY, MODBUS_RESPONSE_TIMEOUT (parts of R35, R36, R58,
R65, R168, R259–R262). A port that does not serve the protocol leaves a request; so does one whose request needs an engine
under test, and with no pipeline it is an Error or exception 4. A segmented request or a response too long is aborted, an
unsupported one rejected, a write that its level forbids denied. A read of a sound record answers its value and quality; a
write that fits a plain point is stored under the client's SOURCE and acknowledged. A time synchronisation sets the clock, or
is dropped and counted while BACNET_SYNC is 0. On Modbus a function code outside the eight is exception 1, an address without
an entry 2, a write of a point that is not writable 4; a register of a sound record is read. A due poll asks and waits; the
reply in time queues the decoded value with its check; an expiry that no reply in time beats marks the point FAULT. -/
def Obligations.ProtocolRequests : Prop :=
  (∀ (p : Fin 24) (q : BacReq) (r : ModReq) (s : State),
    let x := portOf s.dev p.val
    let b := takeCore p.val [.udp47808, .tlsSc, .mstp] (fresh s)
    let m := takeCore p.val [.tcp502] (fresh s)
    let answer := fun kind xs => after s (settle { b with outbox := b.outbox ++ [.bacnet p.val (vlanTag b p.val) kind xs] })
    let modbus := fun bs => after s (settle { m with outbox := m.outbox ++ [.modbus p.val (vlanTag m p.val) bs] })
    ((bacnetPort x = false ∨ needsEngine q = true ∧ s.dev.pe.testing = true) →
      exec (.bacnetRequest p q) s = .next (after s (fresh s))) ∧
    (bacnetPort x = true → needsEngine q = true → s.dev.pe.testing = false → pipesServe s.dev = false →
      exec (.bacnetRequest p q) s = .next (answer 7 [])) ∧
    (bacnetPort x = true →
      exec (.bacnetRequest p .segmented) s = .next (answer 3 []) ∧
      exec (.bacnetRequest p .unsupported) s = .next (answer 8 []) ∧
      (portWaits b p.val = false → exec (.bacnetRequest p .whoIs) s = .next (answer 4 [deviceInstance b p.val])) ∧
      (∀ dt tm, bit s.dev.clk.ctrl 9 = true → ∃ t, exec (.bacnetRequest p (.timeSync false dt tm)) s = .next t ∧
        t.dev.clk.now = fieldsOf dt tm ∧ halted t.dev = false) ∧
      (∀ l dt tm, bit s.dev.clk.ctrl 9 = false → exec (.bacnetRequest p (.timeSync l dt tm)) s =
        .next (after s (settle (setPort p.val { portOf b p.val with syncDropped := (portOf b p.val).syncDropped + 1 } b)))) ∧
      (s.dev.pe.testing = false → pipesServe s.dev = true →
        (∀ l size, maxApdu (portOf b p.val) < size → exec (.bacnetRequest p (.read l size)) s = .next (answer 3 [])) ∧
        (∀ kind num e rec size, size ≤ maxApdu (portOf b p.val) → objectOf s.dev kind num = some e →
          recOf s.dev (mapPoint e.2) = some rec → checkOk (mapPoint e.2) rec = true →
          exec (.bacnetRequest p (.read [(kind, num)] size)) s =
            .next (answer 9 [mapPoint e.2, rec.value.toNat, recQ rec])) ∧
        (∀ kind num v prio dev, objectOf s.dev kind num = none →
          exec (.bacnetRequest p (.writeValue kind num v prio dev)) s = .next (answer 7 [])) ∧
        (∀ kind num e v prio dev, objectOf s.dev kind num = some e → deniedWrite s.dev (mapPoint e.2) v prio = true →
          exec (.bacnetRequest p (.writeValue kind num v prio dev)) s = .next (answer 7 [2, 40])) ∧
        (∀ kind num e v prio dev rec, objectOf s.dev kind num = some e → recOf s.dev (mapPoint e.2) = some rec →
          s.dev.pe.upset = none → (∀ o ∈ s.dev.pe.queue, o.id ≠ mapPoint e.2) →
          (∀ o ∈ s.dev.pe.deliveries, o.id ≠ mapPoint e.2) → stageOf s.dev (mapPoint e.2) = none →
          isPredef (mapPoint e.2) = false → guardedOf rec = false → commandable rec = false → outOfService rec = false →
          valueFits rec.kind (statesOf rec) v = true → envelopeOf s.dev (mapPoint e.2) = none →
          ∃ t r', exec (.bacnetRequest p (.writeValue kind num (some v) prio dev)) s = .next t ∧
            recOf t.dev (mapPoint e.2) = some r' ∧ r'.value = v ∧ recQ r' = 0 ∧ r'.source = bacSource p.val dev ∧
            .bacnet p.val (vlanTag b p.val) 6 [] ∈ t.dev.outbox))) ∧
    ((x.isOpen = false ∨ imgService x.image 2 = false ∨ x.held = true ∨ s.dev.pe.testing = true) →
      exec (.modbusServerRequest p r) s = .next (after s (fresh s))) ∧
    (x.isOpen = true → imgService x.image 2 = true → x.held = false → s.dev.pe.testing = false →
      (pipesServe s.dev = false → exec (.modbusServerRequest p r) s =
        .next (modbus [BitVec.ofNat 8 r.unit, BitVec.ofNat 8 (r.fc + 128), 4#8])) ∧
      (pipesServe s.dev = true →
        ([1, 2, 3, 4, 5, 6, 15, 16].contains r.fc = false → exec (.modbusServerRequest p r) s =
          .next (modbus [BitVec.ofNat 8 r.unit, BitVec.ofNat 8 (r.fc + 128), 1#8])) ∧
        (r.fc = 3 → 0 < r.count → serverCover s.dev r.unit 3 r.addr = none →
          exec (.modbusServerRequest p r) s = .next (modbus [BitVec.ofNat 8 r.unit, 0x83#8, 2#8])) ∧
        (∀ e i rec, r.fc = 3 → r.count = 1 → serverCover s.dev r.unit 3 r.addr = some (e, i) → mapFormat e = 0 →
          recOf s.dev (mapPoint e) = some rec → checkOk (mapPoint e) rec = true →
          exec (.modbusServerRequest p r) s = .next (modbus ([BitVec.ofNat 8 r.unit, 3#8, 2#8] ++
            be16 ([rec.value.toNat / 65536, rec.value.toNat % 65536].getD i 0)))) ∧
        (∀ e v rec, r.fc = 6 → r.values = [v] → serverEntry s.dev r.unit 3 r.addr = some e → entryRegs e = 1 →
          recOf s.dev (mapPoint e) = some rec → commandable rec = false → guardedOf rec = false →
          exec (.modbusServerRequest p r) s = .next (modbus [BitVec.ofNat 8 r.unit, 0x86#8, 4#8]))))) ∧
  (∀ (i : Nat) (rs : List Half) (st : Stamp) (s : State),
    (Tab.find s.dev.ports.map i = none →
      exec (.modbusPollDue i) s = .next (after s (fresh s)) ∧
      exec (.modbusPollReply i rs st) s = .next (after s (arrive st (fresh s))) ∧
      exec (.modbusResponseTimeout i) s = .next (after s (fresh s))) ∧
    (∀ e, Tab.find s.dev.ports.map i = some e →
      (mapRole e = 3 → modbusClient (portOf s.dev (mapPort e)) = true → ∃ t, exec (.modbusPollDue i) s = .next t ∧
        t.dev.outbox = [.modbus (mapPort e) (vlanTag s.dev (mapPort e)) (pollBytes e)] ∧ t.dev.pe = s.dev.pe ∧
        Tab.find t.dev.ports.map i = some { e with
          polling := true, due := pollExpiry s.dev (portOf s.dev (mapPort e)) }) ∧
      ((mapRole e ≠ 3 ∨ modbusClient (portOf s.dev (mapPort e)) = false) →
        exec (.modbusPollDue i) s = .next (after s (fresh s))) ∧
      (e.polling = false → exec (.modbusResponseTimeout i) s = .next (after s (fresh s))) ∧
      (∀ v rec, e.polling = true → NoneDue false st s → (∀ u, e.due = some u → later st u = false) →
        decodeRegs e rs = some v → recOf s.dev (mapPoint e) = some rec →
        ∃ t, exec (.modbusPollReply i rs st) s = .next t ∧
          (∃ o ∈ t.dev.pe.queue ++ t.dev.pe.held, o.id = mapPoint e ∧ o.stamp = st ∧
            o.source = modSource (mapPort e) (mapUnit e) ∧
            o.act = .write v 0 (some (pointCheck (mapPoint e) v 0 rec.kind)) (if commandable rec then 16 else 0)) ∧
          Tab.find t.dev.ports.map i = some { e with polling := false, due := none, failed := false }) ∧
      (∀ u, e.polling = true → u = e.due.getD (now s.dev) →
        (s.pending.any (replyIn (fresh s) i u) = true → exec (.modbusResponseTimeout i) s = .next (after s (fresh s))) ∧
        (s.pending.any (replyIn (fresh s) i u) = false → NoneDue true u s →
          ∃ t, exec (.modbusResponseTimeout i) s = .next t ∧
            (∃ o ∈ t.dev.pe.queue ++ t.dev.pe.held, o.id = mapPoint e ∧ o.act = .quality 3) ∧
            Tab.find t.dev.ports.map i = some { e with polling := false, due := none, failed := true }))))

/-- PORT_OPEN, PORT_CLOSE, PORT_SEND, PORT_QUENCH, PORT_STATS (parts of R255, R257–R259, R263, R265, R365). An image fails by
its CRC, by its first field at fault, by another port it clashes with; a sound one opens the port on the first core in
service, with the entries of its map, and answers the port's status. A closed port keeps its counts and switches. A frame
leaves on an open port, tagged where its image says so, waits while the port is held, and fails QUENCHED. PORT_QUENCH sets
both switches. PORT_STATS answers the status and the counts; the words that the manual does not lay out are free (log
entry 7). -/
def Obligations.PortCommands : Prop :=
  ∀ (c : HostCmd) (s : State),
    let p := c.target.toNat
    let b := (trim c).buf
    let x := portOf s.dev p
    let n := c.count.toNat
    (Ready 0x0601 c s → 24 ≤ p → exec (.portOpen c) s = .next (replied 0x0601 c (badField 8) (fresh s) s)) ∧
    (Ready 0x0601 c s → p < 24 → 64 ≤ (trim c).bufLen → byteAt b 3 = 1 → crc32c (b.take 0x3C) ≠ wordAt b 0x3C →
      exec (.portOpen c) s = .next (replied 0x0601 c (fail stCheckFail (crc32c (b.take 0x3C))) (fresh s) s)) ∧
    (Ready 0x0601 c s → p < 24 → 64 ≤ (trim c).bufLen → byteAt b 3 = 1 → crc32c (b.take 0x3C) = wordAt b 0x3C →
      (x.isOpen = true → exec (.portOpen c) s = .next (replied 0x0601 c (fail stConflict) (fresh s) s)) ∧
      (∀ o, x.isOpen = false → imageFault p b (fresh s) = some o →
        exec (.portOpen c) s = .next (replied 0x0601 c (badBuf o) (fresh s) s)) ∧
      (∀ k, x.isOpen = false → imageFault p b (fresh s) = none → coreInService s.dev = some k →
        let y := { openedPort p b k x with held := testing s.dev (unitCore k) }
        (n = 0 → openConflict p b (fresh s) = false → exec (.portOpen c) s = .next (replied 0x0601 c
          (okWith (portStatus (setPort p y (fresh s)) p)) (setPort p y (fresh s)) s)) ∧
        (n = 0 → openConflict p b (fresh s) = true →
          exec (.portOpen c) s = .next (replied 0x0601 c (fail stConflict) (fresh s) s)) ∧
        (0 < n → n ≤ 1048576 → (imgBacnet b || imgModbus b) = true →
          (∀ q, q < 24 → (portOf s.dev q).isOpen = true →
            (imgBacnet (portOf s.dev q).image || imgModbus (portOf s.dev q).image) = false) →
          64 + 16 * n ≤ (trim c).bufLen → openConflict p b (fresh s) = false →
          mapFault ((List.range n).map (mapEntryAt b)) (fresh s) = none → n ≤ subsFree (dropMapSubs (fresh s)) →
          ∃ d, exec (.portOpen c) s = .next (replied 0x0601 c (okWith (portStatus d p)) d s) ∧
            (portOf d p).isOpen = true ∧ (portOf d p).core = k ∧ ∀ i, i < n → ∃ e, Tab.find d.ports.map i = some e ∧
              e.w0 = wordAt b (64 + 16 * i) ∧ e.w1 = wordAt b (64 + 16 * i + 4) ∧ e.w2 = wordAt b (64 + 16 * i + 8) ∧
              e.w3 = wordAt b (64 + 16 * i + 12)))) ∧
    (Ready 0x0602 c s → p < 24 → x.isOpen = false →
      exec (.portClose c) s = .next (replied 0x0602 c (fail stConflict) (fresh s) s)) ∧
    (Ready 0x0602 c s → p < 24 → x.isOpen = true → ∃ d, exec (.portClose c) s = .next (replied 0x0602 c ok d s) ∧
      d.ports.map = s.dev.ports.map ∧ d.pe = s.dev.pe ∧ d.kw = s.dev.kw ∧
      ((portOf d p).isOpen = false ∧ (portOf d p).coreQ = [] ∧ (portOf d p).rawQ = [] ∧
        (portOf d p).dropRaw = x.dropRaw ∧ (portOf d p).qTx = x.qTx ∧ (portOf d p).qFwd = x.qFwd)) ∧
    (Ready 0x0603 c s → p < 8 → 60 ≤ (trim c).bufLen → (trim c).bufLen ≤ 1518 →
      (x.isOpen = false → exec (.portSend c) s = .next (replied 0x0603 c (fail stConflict) (fresh s) s)) ∧
      (x.isOpen = true → x.qTx = true → exec (.portSend c) s =
        .next (replied 0x0603 c (fail stQuenched c.target) (fresh s) s)) ∧
      (x.isOpen = true → x.qTx = false → x.held = false → exec (.portSend c) s =
        .next (replied 0x0603 c ok (transmit p 0 ((tagged s.dev p b).map BitVec.toNat) (fresh s)) s)) ∧
      (x.isOpen = true → x.qTx = false → x.held = true → exec (.portSend c) s = .next (replied 0x0603 c ok
        (setPort p { x with waitTx := x.waitTx ++ [(0, (tagged s.dev p b).map BitVec.toNat)] } (fresh s)) s))) ∧
    (Ready 0x0603 c s → 8 ≤ p → exec (.portSend c) s = .next (replied 0x0603 c (badField 8) (fresh s) s)) ∧
    (Ready 0x0604 c s → p < 24 → exec (.portQuench c) s = .next (replied 0x0604 c ok
      (setPort p { x with qFwd := bit c.p0 0, qTx := bit c.p0 1 } (fresh s)) s)) ∧
    (Ready 0x0605 c s → p < 24 → 64 ≤ (trim c).bufLen → ∃ ws d, ws.length = 13 ∧ d.ports = s.dev.ports ∧
      exec (.portStats c) s = .next (replied 0x0605 c (okWith (portStatus s.dev p))
        (outBuf (trim c) (wordsBytes ([portStatus s.dev p, portDrops s.dev p, portRefusals s.dev p] ++ ws)) d) s))

/-! ## Kwela -/

/-- HELLO, VALUE, ACK, DIAG (parts of R268, R269, R271, R272, R276, R278–R280). With `a` the device after the occurrences
that the arrival passes: a frame on a segment that is not served only brings the angle to its stamp; one that does not parse
is discarded and counted. A device whose HELLO stands is entered on its trunk with its version and is answered by a HELLO. A
VALUE whose records the device lists queues a write of each with its check, stamp and SOURCE, and an ACK that is asked for; a
repeated one is only acknowledged; the first record it does not list is answered by DIAG 3. An ACK in time ends the flight it
answers; another changes nothing. A DIAG is counted, once for a repeated one, ends its flight, tests the port's core for
code 1, and for code 2 on a COMMAND with resends left resends it behind a BEACON; one of another layout is discarded. -/
def Obligations.KwelaFrames : Prop :=
  ∀ (t : Fin 16) (b : List Byte) (st : Stamp) (s : State),
    let a := arrive st (fresh s)
    let runs := [exec (.hello t b st) s, exec (.value t b st) s, exec (.ack t b st) s, exec (.diag t b st) s]
    let queued := fun (u : State) (type dst : Nat) => ∃ g ∈ (trunkOf u.dev t.val).queue, g.type = type ∧ g.dst = dst
    (kwServed a t.val = false → ∀ r ∈ runs, r = .next (after s a)) ∧
    (kwServed a t.val = true → parseK b = none →
      ∀ r ∈ runs, r = .next (after s (discard t.val (takeCore ((kwPort a t.val).getD 0) [.kwela] a)))) ∧
    (∀ f e, receiveK t.val tHello b a = (some f, e) → badHello f.payload = false → helloVerdict t.val f e = 0 →
      ∃ u v, exec (.hello t b st) s = .next u ∧ devAt u.dev f.src = some v ∧ v.trunk = t.val ∧
        v.ver = (helloVer f.payload).getD 1 ∧ queued u tHello f.src) ∧
    (∀ f e v, receiveK t.val tValue b a = (some f, e) → devOn e t.val f.src = some v → f.len % 12 = 0 → 0 < f.len →
      f.len ≤ 1020 → (∀ k, k < f.len / 12 → (kRecord f.payload k).1 < 8388608) →
      ((∀ k, k < f.len / 12 → listsInput v (kRecord f.payload k).1 = true) → repeated e f = true →
        exec (.value t b st) s = .next (after s (if f.ackReq then queueAck t.val f e else e))) ∧
      ((∀ k, k < f.len / 12 → listsInput v (kRecord f.payload k).1 = true) → repeated e f = false →
        ∃ u, exec (.value t b st) s = .next u ∧ (f.ackReq = true → queued u tAck f.src) ∧
          ∀ k, k < f.len / 12 → ∃ o ∈ u.dev.pe.queue ++ u.dev.pe.held, let r := kRecord f.payload k
            o.id = r.1 ∧ o.act = .write r.2.1 r.2.2.1 (some (recordCheck e f.payload k)) 0 ∧
            o.stamp = f.stamp.getD st ∧ o.source = srcWord 7 (t.val * 65536 + f.src)) ∧
      (∀ k, k < f.len / 12 → listsInput v (kRecord f.payload k).1 = false →
        ∃ u, exec (.value t b st) s = .next u ∧ queued u tDiag f.src)) ∧
    (∀ f e, receiveK t.val tAck b a = (some f, e) →
      (answered t.val f st e = none → exec (.ack t b st) s = .next (after s e)) ∧
      (∀ g, answered t.val f st e = some g → ∃ u v, exec (.ack t b st) s = .next u ∧ devAt u.dev f.src = some v ∧
        v.flight = none ∧ (g.frame.points = [] → u = after s (settle (endFlight f.src e))))) ∧
    (∀ f e, receiveK t.val tDiag b a = (some f, e) →
      let good := f.len = 8 ∧ byteAt f.payload 1 = 0 ∧ byteAt f.payload 5 = 0 ∧ byteAt f.payload 4 < 128
      let n := if repeated e f then (trunkOf e t.val).diag else up16 (trunkOf e t.val).diag
      (¬ good → exec (.diag t b st) s = .next (after s (discard t.val e))) ∧
      (good → answered t.val f st e = none → ∃ u, exec (.diag t b st) s = .next u ∧ (trunkOf u.dev t.val).diag = n ∧
        (f.ackReq = true → queued u tAck f.src) ∧ (byteAt f.payload 0 = 1 → repeated e f = false →
          retired e (kwCoreUnit e t.val) = false → testing u.dev (kwCoreUnit e t.val) = true)) ∧
      (∀ g, good → answered t.val f st e = some g →
        ((byteAt f.payload 0 ≠ 2 ∨ g.frame.type ≠ tCommand ∨ 3 ≤ g.resends) → ∃ u v, exec (.diag t b st) s = .next u ∧
          devAt u.dev f.src = some v ∧ v.flight = none ∧ (trunkOf u.dev t.val).diag = n) ∧
        (byteAt f.payload 0 = 2 → g.frame.type = tCommand → g.resends < 3 → ∃ u v h, exec (.diag t b st) s = .next u ∧
          devAt u.dev f.src = some v ∧ v.flight = some h ∧ h.resends = g.resends + 1 ∧ h.frame.retry = true ∧
          queued u tBeacon 0xFFFF)))

/-- KWELA_BEACON_TIMER, KWELA_TRANSMIT, COMMAND, ACK_WAIT_EXPIRY, SILENT_HELLO, SCAN_SLOT_END (parts of R36, R255, R267, R268,
R273, R277, R280, R281). Every open segment gets a beacon. With nothing to send a transmission is none; a collision keeps the
frame; else the next frame leaves under this controller's address, claims and stamp, on T1S within an Ethernet frame. A
COMMAND carries the values delivered of a device's outputs under their claim. An expiry that no answer in time beats resends,
and after three resends makes the device SILENT; a SILENT one is greeted. A scan goes on to its next slot, but not while its
operation is suspended or after its last. -/
def Obligations.KwelaTimers : Prop :=
  ∀ (t : Fin 16) (a : Nat) (o : Bool) (s : State),
    (∃ u, exec .kwelaBeaconTimer s = .next u ∧ u.dev.pe = s.dev.pe ∧ u.dev.belay = s.dev.belay ∧ u.dev.outbox = [] ∧
      ∀ k, k < 16 → kwOpen s.dev k = true → ∃ f ∈ (trunkOf u.dev k).queue, f.type = tBeacon) ∧
    ((kwPort s.dev t.val = none ∨ nextFrame s.dev t.val = none) →
      exec (.kwelaTransmit t o) s = .next (after s (fresh s))) ∧
    (∀ p f, kwPort s.dev t.val = some p → nextFrame s.dev t.val = some f →
      let bytes := frameBytes (myAddr s.dev) (f.stamp.getD (now s.dev))
        (if f.type = tCommand then f.claim else higherClaim s.dev)
        (if f.type = tBeacon then { f with payload := beaconPayload s.dev } else f)
      (∃ u, exec (.kwelaTransmit t true) s = .next u ∧ u.dev.outbox = [.collision t.val] ∧
        (trunkOf u.dev t.val).queue = (trunkOf s.dev t.val).queue) ∧
      (∃ u, exec (.kwelaTransmit t false) s = .next u ∧ u.dev.pe = s.dev.pe ∧
        (trunkOf u.dev t.val).queue = (trunkOf s.dev t.val).queue.erase f ∧
        (8 ≤ p → u.dev.outbox = [.kwela t.val bytes]) ∧
        (p < 8 → u.dev.outbox =
          [.frame p (tagged s.dev p (bytesLE (Config.macPair p).toNat 12 ++ [0x88#8, 0xB5#8] ++ bytes))]))) ∧
    ((kwPort s.dev t.val = none ∨ devOn s.dev t.val a = none) →
      exec (.command t a) s = .next (after s (fresh s))) ∧
    (∀ v x, (kwPort s.dev t.val).isSome = true → devOn s.dev t.val a = some v → v.silent = false →
      s.dev.pe.deliveries = [] → s.dev.kw.pendingOut = [x] → (x.id, true) ∈ v.listings →
      ∃ u f, exec (.command t a) s = .next u ∧ u.dev.kw.pendingOut = [] ∧ f ∈ (trunkOf u.dev t.val).queue ∧
        f.type = tCommand ∧ f.dst = a ∧ f.ackReq = true ∧ f.points = [x.id] ∧ f.claim = x.claim ∧
        f.payload = kRecordBytes s.dev x) ∧
    (devOn s.dev t.val a = none → exec (.ackWaitExpiry t a) s = .next (after s (fresh s)) ∧
      exec (.silentHello t a) s = .next (after s (fresh s))) ∧
    (∀ v, devOn s.dev t.val a = some v →
      (v.flight = none → exec (.ackWaitExpiry t a) s = .next (after s (fresh s))) ∧
      (∀ g due, v.flight = some g → g.due = some due →
        (s.pending.any (answerIn (fresh s) t.val a) = true →
          exec (.ackWaitExpiry t a) s = .next (after s (fresh s))) ∧
        (s.pending.any (answerIn (fresh s) t.val a) = false → NoneDue true due s →
          (3 ≤ g.resends → ∃ u, exec (.ackWaitExpiry t a) s = .next u ∧
            devAt u.dev a = some { v with silent := true, flight := none } ∧
            (trunkOf u.dev t.val).silents = up16 (trunkOf s.dev t.val).silents) ∧
          (g.resends < 3 → ∃ u w h, exec (.ackWaitExpiry t a) s = .next u ∧
            devAt u.dev a = some w ∧ w.flight = some h ∧ h.resends = g.resends + 1 ∧ h.due = none ∧
            h.frame.retry = true ∧ h.frame.seq = g.frame.seq ∧ w.silent = v.silent ∧
            h.frame ∈ (trunkOf u.dev t.val).queue))) ∧
      (v.silent = false → exec (.silentHello t a) s = .next (after s (fresh s))) ∧
      (v.silent = true → ∃ u f, exec (.silentHello t a) s = .next u ∧
        (trunkOf u.dev t.val).queue = (trunkOf s.dev t.val).queue ++ [f] ∧ f.type = tHello ∧ f.dst = a ∧ f.ver = 1 ∧
        f.seq = v.txSeq)) ∧
    ((trunkOf s.dev t.val).scan = none → exec (.scanSlotEnd t o) s = .next (after s (fresh s))) ∧
    (∀ x, (trunkOf s.dev t.val).scan = some x → NoneDue true x.due s →
      (x.slot < 256 → (Tab.find s.dev.lop.slots x.op).map (·.st) ≠ some 3 → ∃ u y, exec (.scanSlotEnd t o) s = .next u ∧
        (trunkOf u.dev t.val).scan = some y ∧ y.slot = x.slot + 1 ∧ y.overruns = x.overruns + b2n o ∧
        y.found = x.found ∧ y.before = x.due ∧ (x.slot < 255 → ∃ f ∈ (trunkOf u.dev t.val).queue, f.type = tHello)) ∧
      ((256 ≤ x.slot ∨ (Tab.find s.dev.lop.slots x.op).map (·.st) = some 3) →
        exec (.scanSlotEnd t o) s = .next (after s (expire x.due (fresh s)))))

/-! ## Belay and pair mode -/

/-- HEARTBEAT, HEARTBEAT_MISS, REFRESH_LATE, BELAY_START_WAIT_END, CLAIM_READ (parts of R8, R282–R293, R306, R360). A heartbeat
that comes in time, with no occurrence before it, clears the misses and moves the deadline; of a withdrawn cluster it does no
more. It makes the claim of HEALTH, preference and unit: before the first owner is chosen, alone, it starts the wait; of the
owner with its claim as it stood it changes nothing; of the other unit a higher one switches over. A miss that no heartbeat in
time beats counts; the third in a row withdraws the claim, and where no live claim is left no owner drives any output. The
late refresh is flagged and logged while an output is HELD. The end of the wait chooses, withdrawing a cluster that never
beat. CLAIM_READ answers the claims of both devices and the status. -/
def Obligations.BelayClaims : Prop :=
  ∀ (c : Cluster) (q : Half) (st : Stamp) (h : HostCmd) (s : State),
    let tr := track s.dev c
    let o := clOther c
    (NoneDue false st s → (∀ u, s.dev.belay.waiting = some u ∨ tr.due = some u → later st u = false) →
      let d := arrive st (fresh s)
      let beat := { tr with
        seq := q, misses := 0, started := true, pref := prefOf s.dev c, due := some (stPlus st (acOfUs d 1100)) }
      let cl := claimWord tr.health (prefOf s.dev c) (unitOf s.dev c)
      let counts := tr.withdrawn = false ∧ tr.stopped = false ∧ enginesGone s.dev c = false
      let seen := after s (settle (setTrack c beat { d with outbox := [.heartbeatSeen (unitOf s.dev c)] }))
      (tr.withdrawn = true → exec (.heartbeat c q st) s = .next seen) ∧
      (counts → s.dev.belay.chosen = false → (track s.dev o).started = false → ∃ t, exec (.heartbeat c q st) s = .next t ∧
        track t.dev c = { beat with live := true, claim := cl } ∧ track t.dev o = track s.dev o ∧
        t.dev.belay.waiting.isSome = true ∧ t.dev.belay.chosen = false) ∧
      (counts → s.dev.belay.chosen = true → ownerCluster s.dev = some c → tr.live = true → tr.claim = cl →
        s.dev.belay.owner = cl → cl ≠ 0#16 → rivalClaim s.dev o ≤ cl.toNat → exec (.heartbeat c q st) s = .next seen) ∧
      (counts → s.dev.belay.chosen = true → ownerCluster s.dev = some o → (liveClaim s.dev o).toNat ≠ 0 →
        (liveClaim s.dev o).toNat < cl.toNat → ∃ t, exec (.heartbeat c q st) s = .next t ∧ t.dev.belay.owner = cl ∧
          t.dev.belay.ownerUnit = unitOf s.dev c ∧ bit t.dev.belay.flags 0 = true ∧
          t.dev.belay.switchovers = up16 s.dev.belay.switchovers)) ∧
    (tr.due = none → exec (.heartbeatMiss c) s = .next (after s (fresh s))) ∧
    (∀ u, tr.due = some u →
      (s.pending.any (heartbeatIn (· == c) u) = true → exec (.heartbeatMiss c) s = .next (after s (fresh s))) ∧
      (s.pending.any (heartbeatIn (· == c) u) = false → NoneDue true u s →
        ((tr.misses ≠ 2 ∨ tr.withdrawn = true) → ∃ t, exec (.heartbeatMiss c) s = .next t ∧
          track t.dev c = { tr with
            misses := tr.misses + 1, due := some (stPlus u (acOfUs (expire u (fresh s)) 1100)) } ∧
          t.dev.belay.owner = s.dev.belay.owner ∧ t.dev.belay.hbMissed = up16 s.dev.belay.hbMissed) ∧
        (tr.misses = 2 → tr.withdrawn = false → s.dev.belay.chosen = true →
          (ownerCluster s.dev = some o → (liveClaim s.dev o).toNat ≠ 0 → liveClaim s.dev o = s.dev.belay.owner →
            ∃ t, exec (.heartbeatMiss c) s = .next t ∧ (track t.dev c).live = false ∧ (track t.dev c).withdrawn = true ∧
              t.dev.belay.owner = s.dev.belay.owner) ∧
          (ownerCluster s.dev = some c → (liveClaim s.dev o).toNat = 0 →
            ∃ t, exec (.heartbeatMiss c) s = .next t ∧ t.dev.belay.owner = 0#16 ∧ t.dev.belay.ownerUnit = 0 ∧
              bit t.dev.belay.flags 1 = true ∧
              ∀ k, k < 88 → stageState t.dev k = if s.dev.link.fieldLost then 3 else 2)))) ∧
    (s.dev.belay.refreshDue = none → exec .refreshLate s = .next (after s (fresh s))) ∧
    (∀ u, s.dev.belay.refreshDue = some u → s.pending.any (ackIn u) = false → NoneDue true u s →
      (belayState s.dev = 1 → ∃ t e, exec .refreshLate s = .next t ∧ bit t.dev.belay.flags 2 = true ∧
        t.dev.belay.refreshDue = none ∧ t.dev.lk.ramLog.getLast? = some e ∧ e.code = 0x016) ∧
      (belayState s.dev ≠ 1 → exec .refreshLate s = .next (after s { expire u (fresh s) with
        belay := { s.dev.belay with refreshDue := none } }))) ∧
    (s.dev.belay.waiting = none → exec .belayStartWaitEnd s = .next (after s (fresh s))) ∧
    (∀ u, s.dev.belay.waiting = some u → s.pending.any (heartbeatIn (fun c => !(track s.dev c).started) u) = false →
      NoneDue true u s →
      (s.dev.belay.chosen = true → exec .belayStartWaitEnd s = .next (after s (expire u (fresh s)))) ∧
      (s.dev.belay.chosen = false → ∃ t, exec .belayStartWaitEnd s = .next t ∧ t.dev.belay.chosen = true ∧
        t.dev.belay.waiting = none ∧ (tr.started = false → (track t.dev c).withdrawn = true))) ∧
    (Ready 0x0806 h s → exec (.claimRead h) s =
      .next (replied 0x0806 h (okWith (belayClaims s.dev) (twinClaims s.dev) (belayStatus s.dev)) (fresh s) s))

/-- ROPE_LINK_FRAME, ROPE_LINK_SILENT, ROPE_SIGNAL_CHANGE, MIRROR_INTERVAL, WITNESS_TIMEOUT, PAIR_SEARCH_TIMEOUT, BEACON,
PAIR_CONFIG (parts of R25, R36, R269, R273, R297–R305, R360, R455). A frame with a bad CRC is nothing. One in time with
another hash forms no pair; under the same hash the link is up, the active device stays so while its claim is no lower than
its twin's, and the standby while its own is no higher, taking over the lag. An expiry that nothing in time beats: the link is
silent, and where the witness still hears the twin that is flagged; the standby that hears neither takes over; the search ends
active. The active device mirrors what changed while the link is up, else the lag grows. A beacon of the twin on a witness
segment counts as one. PAIR_CONFIG turns the pair mode on, with every live claim made anew. -/
def Obligations.PairMode : Prop :=
  ∀ (f : RopeFrame) (h : HostCmd) (k : Fin 16) (b : List Byte) (st : Stamp) (s : State),
    let p := s.dev.pair
    let inTime := fun t => NoneDue false t s ∧
      ∀ u, p.linkDue = some u ∨ p.heardDue = some u ∨ p.searchDue = some u → later t u = false
    (f.crcOk = false → exec (.ropeLinkFrame f) s = .next (after s (fresh s))) ∧
    (f.crcOk = true → inTime f.arrived →
      (p.enabled = false → ∃ t, exec (.ropeLinkFrame f) s = .next t ∧ t.dev.pair.linkUp = true ∧
        t.dev.pair.linkDue.isSome = true ∧ t.dev.pair.role = p.role) ∧
      (p.enabled = true → f.hash ≠ p.hash → p.mismatch = false → ∃ t, exec (.ropeLinkFrame f) s = .next t ∧
        t.dev.pair.role = 0 ∧ t.dev.pair.mismatch = true ∧ bit t.dev.belay.flags 5 = true) ∧
      (p.enabled = true → f.hash = p.hash → p.role = 2 → p.linkUp = true →
        max f.low.toNat f.high.toNat ≤ (higherClaim s.dev).toNat → ∃ t, exec (.ropeLinkFrame f) s = .next t ∧
          t.dev.pair.role = 2 ∧ t.dev.pair.linkUp = true ∧ t.dev.pair.twinLow = f.low ∧ t.dev.pair.twinHigh = f.high ∧
          t.dev.pair.mismatch = false) ∧
      (p.enabled = true → f.hash = p.hash → p.role = 3 → f.items = [] →
        (higherClaim s.dev).toNat ≤ max f.low.toNat f.high.toNat → ∃ t, exec (.ropeLinkFrame f) s = .next t ∧
          t.dev.pair.role = 3 ∧ t.dev.pair.lag = min 65535 f.lagMs ∧ (t.dev.pair.lagging = true ↔ 50 < f.lagMs)) ∧
      (p.enabled = true → f.hash = p.hash → p.role = 3 →
        max f.low.toNat f.high.toNat < (higherClaim s.dev).toNat → ∃ t, exec (.ropeLinkFrame f) s = .next t ∧
          t.dev.pair.role = 2 ∧ bit t.dev.belay.flags 4 = true)) ∧
    (p.linkDue = none → exec .ropeLinkSilent s = .next (after s (fresh s))) ∧
    (∀ u, p.linkDue = some u → s.pending.any (linkIn u) = false → NoneDue true u s →
      let d := expire u (fresh s)
      (p.enabled = true → (p.role = 2 ∨ p.role = 3) → p.linkLost = false → witnessOk d = true →
        ∃ t, exec .ropeLinkSilent s = .next t ∧ t.dev.pair.linkUp = false ∧ t.dev.pair.role = p.role ∧
          t.dev.pair.linkDue = none ∧ bit t.dev.belay.flags 3 = true) ∧
      ((p.enabled = false ∨ witnessOk d = false) → exec .ropeLinkSilent s = .next (after s (settle
        { d with pair := { p with linkUp := false, linkDue := none } })))) ∧
    (∀ v, exec (.ropeSignalChange v) s = .next (after s { fresh s with pair := { p with ropeSd := v } })) ∧
    (p.enabled = false → exec .mirrorInterval s = .next (after s (fresh s))) ∧
    (p.enabled = true → p.mismatch = false → p.linkUp = true → p.role = 2 → exec .mirrorInterval s = .next (after s
      { fresh s with
        outbox := [.rope (liveClaim s.dev .a) (liveClaim s.dev .b) 2 (mirrorItems s.dev)]
        pair := { p with dirtyPoints := [], dirtyLoops := [], dirtyZones := [], lag := 0, lagging := false } })) ∧
    (p.enabled = true → p.mismatch = false → p.linkUp = false → (p.role = 2 ∨ p.role = 3) →
      ∃ t, exec .mirrorInterval s = .next t ∧ t.dev.pair.lag = min 65535 (p.lag + 10) ∧ t.dev.outbox = []) ∧
    (p.heardDue = none → exec .witnessTimeout s = .next (after s (fresh s))) ∧
    (∀ u, p.heardDue = some u → s.pending.any (twinIn (fresh s) u) = false → NoneDue true u s →
      (p.enabled = true → p.role = 3 → p.linkUp = false → ∃ t, exec .witnessTimeout s = .next t ∧ t.dev.pair.role = 2 ∧
        t.dev.pair.witnessDue = none ∧ bit t.dev.belay.flags 4 = true) ∧
      (p.enabled = true → (p.role ≠ 3 ∨ p.linkUp = true) → exec .witnessTimeout s = .next (after s
        { expire u (fresh s) with
          pair := { p with witnessDue := none, heardDue := none, twinLow := 0#16, twinHigh := 0#16 } }))) ∧
    (p.searchDue = none → exec .pairSearchTimeout s = .next (after s (fresh s))) ∧
    (∀ u, p.searchDue = some u → s.pending.any (twinIn (fresh s) u) = false → NoneDue true u s →
      (p.enabled = true → p.role = 1 → ∃ t, exec .pairSearchTimeout s = .next t ∧ t.dev.pair.role = 2 ∧
        t.dev.pair.searchDue = none) ∧
      ((p.enabled = false ∨ p.role ≠ 1) → exec .pairSearchTimeout s = .next (after s { expire u (fresh s) with
        pair := { p with searchDue := none } }))) ∧
    (inTime st →
      let d := arrive st (fresh s)
      (kwServed d k.val = false → exec (.beacon k b st) s = .next (after s d)) ∧
      (∀ g e, receiveK k.val tBeacon b d = (some g, e) → g.src = twinAddr e → g.len = 5 → byteAt g.payload 4 < 4 →
        e.pair.enabled = true → e.pair.witness.contains ((kwPort e k.val).getD 0) = true →
        ∃ t, exec (.beacon k b st) s = .next t ∧ t.dev.pair.witnessDue.isSome = true ∧
          t.dev.pair.twinLow = hw (halfAt g.payload 0) ∧ t.dev.pair.twinHigh = hw (halfAt g.payload 2))) ∧
    (Ready 0x0808 h s → 64 ≤ (trim h).bufLen → byteAt (trim h).buf 0 = 1 → pairBufFault (trim h).buf (fresh s) = none →
      64 + 4 * (wordAt (trim h).buf 0xC).toNat ≤ (trim h).bufLen →
      (p.enabled = true → exec (.pairConfig h) s = .next (replied 0x0808 h (fail stConflict) (fresh s) s)) ∧
      (∀ m, p.enabled = false → s.dev.pe.plan = some m → m.pair = true → sharedFault (trim h).buf (fresh s) = none →
        ∃ d, exec (.pairConfig h) s = .next (replied 0x0808 h (okWith 1#32) d s) ∧ d.pair.enabled = true ∧
          d.pair.role = 1 ∧ d.pair.upper = bit (wordAt (trim h).buf 0) 8 ∧
          d.pair.hash = ((trim h).buf.drop 0x10).take 48 ∧
          (∀ x, (track s.dev x).live = true → (track d x).claim = fullClaim d x) ∧
          (s.dev.belay.chosen = false → d.pe = s.dev.pe)))

/-! ## Integrity, long operations -/

/-- SCRUB, SELF_TEST_COMPLETE, SELF_TEST_TIMEOUT (parts of R309, R314, R316, R317, R319). An error that the scrub finds in an SRAM bank
or a DRAM page is counted where it was corrected, and the unit is under test afterwards if it is in service; a unit code
of another class changes nothing. A verdict or a timeout for a unit not under test changes nothing. A zone engine that fails, or
whose test does not end in time, is retired and lowers its cluster's HEALTH by 15, not below 1; one that passes its retest
serves again; one that passes a test that no error started stays as it was. -/
def Obligations.UnitTests : Prop :=
  ∀ (w : Word) (dbl : Option (Fin 512)) (r : TestResult) (x : UnitTest) (c : Cluster) (s : State),
    let u := w.toNat
    ((unitKnown u = false ∨ (unitClass u ≠ 1 ∧ unitClass u ≠ 4)) →
      exec (.scrub w dbl) s = .next (after s (fresh s))) ∧
    (unitKnown u = true → (unitClass u = 1 ∨ unitClass u = 4) → ∃ t, exec (.scrub w dbl) s = .next t ∧
      Tab.get 0 t.dev.integ.ecc u = Tab.get 0 s.dev.integ.ecc u + (if dbl.isNone then 1 else 0) ∧
      (retired s.dev u = true ∨ testing t.dev u = true) ∧ t.dev.integ.retired = s.dev.integ.retired) ∧
    (Tab.find s.dev.integ.tests u = none → exec (.selfTestComplete w r) s = .next (after s (fresh s)) ∧
      exec (.selfTestTimeout w) s = .next (after s (fresh s))) ∧
    (Tab.find s.dev.integ.tests u = some x → u = unitZone c → x.slot = none → x.console = false → x.reinstate = none →
      (∀ e ∈ [exec (.selfTestComplete w .fail) s, exec (.selfTestTimeout w) s], ∃ t, e = .next t ∧
        retired t.dev u = true ∧ (track t.dev c).health = max 1 ((track s.dev c).health - 15)) ∧
      (x.retest = true → ∃ t, exec (.selfTestComplete w .pass) s = .next t ∧ retired t.dev u = false ∧
        t.dev.belay = s.dev.belay) ∧
      (x.retest = false → x.byError = false → ∃ t, exec (.selfTestComplete w .pass) s = .next t ∧
        t.dev.integ.retired = s.dev.integ.retired ∧ t.dev.belay = s.dev.belay))

/-- SUSPEND, RESUME, CANCEL, OP_STATUS, LONGOP_CHECKPOINT, PROGRESS_EVENT and the nine long operations (parts of R36, R162, R215,
R281, R362, R363, R368–R372, R387). A long operation that its own checks pass is turned away as `lopRefused` says, or takes the
slot of `slotToTake`, RUNNING, and answers STARTED with the slot's number, no point record changed. A control command that
names no operation answers NOT_FOUND. SUSPEND of a running one and CANCEL of a running one wait; CANCEL of a suspended one ends
it at once; RESUME of a suspended POINT_IMPORT runs on; a wrong state is a CONFLICT; OP_STATUS answers what has been done so
far, and of an ended one the results, and frees the slot. A checkpoint of an IMAGE_STAGE that goes on has staged 4,096 more
bytes; one of a free, suspended or ended slot changes nothing. PROGRESS_EVENT of a running slot sets its event waiting and
delivers what can be delivered. -/
def Obligations.LongOperations : Prop :=
  ∀ (c : HostCmd) (i : Fin 16) (s : State),
    let b := trim c
    let starts := fun (op : Nat) (e : Instr) (total : Nat) =>
      (∀ x, lopRefused op b (fresh s) = some x → exec e s = .next (replied op c x (fresh s) s)) ∧
      (∀ k, lopRefused op b (fresh s) = none → slotToTake s.dev = some k → ∃ d l,
        exec e s = .next (replied op c (fail stStarted (wd k)) d s) ∧ Tab.find d.lop.slots k = some l ∧ l.st = 1 ∧
        l.opcode = op ∧ l.total = total ∧ l.cmd = b ∧ d.pe.recs = s.dev.pe.recs)
    (findLop c s.dev = none →
      (Ready 0x0004 c s → exec (.suspend c) s = .next (replied 0x0004 c (fail stNotFound c.target) (fresh s) s)) ∧
      (Ready 0x0005 c s → exec (.resume c) s = .next (replied 0x0005 c (fail stNotFound c.target) (fresh s) s)) ∧
      (Ready 0x0006 c s → exec (.cancel c) s = .next (replied 0x0006 c (fail stNotFound c.target) (fresh s) s)) ∧
      (Ready 0x0007 c s → exec (.opStatus c) s = .next (replied 0x0007 c (fail stNotFound c.target) (fresh s) s))) ∧
    (∀ k l, findLop c s.dev = some (k, l) →
      (Ready 0x0004 c s → l.st ≠ 1 → exec (.suspend c) s = .next (replied 0x0004 c (fail stConflict) (fresh s) s)) ∧
      (Ready 0x0004 c s → l.st = 1 → exec (.suspend c) s = .next (awaiting 0x0004 c
        (modLop k (fun l => { l with st := 2, suspendBy := some b }) (fresh s)) s)) ∧
      (Ready 0x0005 c s → l.st ≠ 3 → exec (.resume c) s = .next (replied 0x0005 c (fail stConflict) (fresh s) s)) ∧
      (Ready 0x0005 c s → l.st = 3 → l.opcode = 0x0110 → exec (.resume c) s = .next (replied 0x0005 c ok
        (modLop k (fun l => { l with st := 1, progress := l.reserved }) (fresh s)) s)) ∧
      (Ready 0x0006 c s → l.st = 1 → l.cancel = false → exec (.cancel c) s = .next (awaiting 0x0006 c
        (modLop k (fun l => { l with st := 2, cancel := true, cancelBy := some b }) (fresh s)) s)) ∧
      (Ready 0x0006 c s → l.st = 3 → exec (.cancel c) s = .next (replied 0x0006 c ok
        (endLop k stCancelled (lopCancelled k (fresh s))) s)) ∧
      (Ready 0x0006 c s → l.st = 4 → exec (.cancel c) s = .next (replied 0x0006 c (fail stConflict) (fresh s) s)) ∧
      (Ready 0x0007 c s → l.st = 4 → exec (.opStatus c) s = .next (replied 0x0007 c (fail l.status l.r0 l.r1 l.r2)
        (setLops (Tab.del s.dev.lop.slots k) (fresh s)) s)) ∧
      (Ready 0x0007 c s → l.st ≠ 4 → ∃ r1 r2, exec (.opStatus c) s = .next (replied 0x0007 c
        (fail (if l.st = 3 then stSuspended else stStarted) (wd (lopPct l)) r1 r2) (fresh s) s))) ∧
    (lopAt s.dev i.val = none → exec (.longopCheckpoint i) s = .next (after s (fresh s))) ∧
    (∀ l, lopAt s.dev i.val = some l →
      ((l.st = 3 ∨ l.st = 4) → exec (.longopCheckpoint i) s = .next (after s (fresh s))) ∧
      (l.st = 1 → l.pos ≠ 1 → l.opcode = 0x0906 → l.cancel = false → l.suspendBy = none → coreRuns s.dev = true →
        l.items + 4096 < l.total → ∃ d m, exec (.longopCheckpoint i) s = .next (after s (settle d)) ∧
          lopAt d i.val = some m ∧ m.st = 1 ∧ m.items = l.items + 4096 ∧ m.total = l.total ∧ d.nvm = s.dev.nvm) ∧
      ((l.st = 1 ∨ l.st = 2) → exec (.progressEvent i) s = .next (after s (settle
        (modLop i.val (fun x => { x with progress := x.reserved }) (fresh s)))))) ∧
    (Ready 0x0110 c s → 40 * c.count.toNat ≤ b.bufLen → starts 0x0110 (.pointImport c) c.count.toNat) ∧
    (Ready 0x0111 c s → c.target.toNat < 0x500000 → c.target.toNat + c.count.toNat ≤ 0x500000 →
      32 * c.count.toNat ≤ b.bufLen → starts 0x0111 (.pointExport c) c.count.toNat) ∧
    (Ready 0x0A03 c s → c.target.toNat < 1048576 → c.target.toNat + c.count.toNat ≤ 1048576 →
      (bit c.p0 0 = true ∨ 16 * rangeSamples c s.dev ≤ b.bufLen) → starts 0x0A03 (.trendExport c) (rangeSamples c s.dev)) ∧
    (Ready 0x0306 c s → between 2 28 c.p0.toNat = true →
      (∀ n, n < max 1 c.count.toNat → zoneAt s.dev (c.target.toNat + n) ≠ none) →
      starts 0x0306 (.zoneFit c) c.count.toNat) ∧
    (Ready 0x0503 c s → calNames c ≠ [] → (∀ k ∈ calNames c, retired s.dev (unitAdc k) = false ∧
      ownerOf s.dev (resCal k) = none) → starts 0x0503 (.adcCal c) (calNames c).length) ∧
    (∀ k, Ready 0x0606 c s → c.target.toNat < 24 → kwTrunkOf s.dev c.target.toNat = some k →
      16 * c.count.toNat ≤ b.bufLen → (trunkOf s.dev k).scan = none → starts 0x0606 (.kwelaScan c) 256) ∧
    (Ready 0x0703 c s → s.dev.nvm.scanDone = false →
      exec (.nvmCompact c) s = .next (replied 0x0703 c (fail stNotReady) (fresh s) s)) ∧
    (Ready 0x0703 c s → s.dev.nvm.scanDone = true →
      starts 0x0703 (.nvmCompact c) ((1024 - min 1024 (freePages s.dev.nvm) + 15) / 16)) ∧
    (Ready 0x0803 c s → c.target ≠ all1 → unitKnown c.target.toNat = true → retired s.dev c.target.toNat = false →
      starts 0x0803 (.selfTest c) 1) ∧
    (Ready 0x0803 c s → c.target = all1 → starts 0x0803 (.selfTest c) (allUnits s.dev).length) ∧
    (Ready 0x0906 c s → b.bufLen ≠ 0 → starts 0x0906 (.imageStage c) b.bufLen)

/-! ## Lock-keeper, power, resets -/

/-- HOUSEKEEPING_ROUND, THROTTLE_FALL, THROTTLE_HOLD_END, SENSOR_FAILED, TD_SUSPECT, RAIL_OUT, HOST_ABSENT, LOG_FLUSH, LOG_READ,
HEALTH_READ, PFI_ASSERT, PFI_DEASSERT, PFW_CLEAR (parts of R360, R395, R397, R399–R401, R403–R406, R411, R421). While the core die
does not run, a round, an assertion of PFI, a flush, a host absence and the end of a warning change nothing. A round counts; it
raises the level by one above 125 °C below 7 and above 115 °C below 5, and up to 115 °C leaves the thermal state as the
readings make it. The level falls by one below 110 °C, without a hold and above the floor. A sensor that fails is noted, the
level not below the floor; TD_F suspect and a rail out are logged once. An absent host is counted. A flush puts the pending log into the
NVM. LOG_READ and HEALTH_READ write their entries and the health record to the buffer. The first event of a power-fail
warning is counted, holds the NVM and flushes the log; a clear ends the warning and lets the NVM go on, and after a brownout
resets the device with cause 7 unless one is pending. -/
def Obligations.LockKeeper : Prop :=
  ∀ (temps : List (Option Word)) (rails : List Word) (stopped : Bool) (k : Fin 12) (n : Fin 16) (c : HostCmd) (s : State),
    let th := s.dev.th
    let read := (readTemps temps th).1
    (coreRuns s.dev = false → exec (.housekeepingRound temps rails stopped) s = .next (after s (fresh s)) ∧
      exec .pfiAssert s = .next (after s (fresh s)) ∧ exec .logFlush s = .next (after s (fresh s)) ∧
      exec .hostAbsent s = .next (after s (fresh s)) ∧ exec .pfwClear s = .next (after s (fresh s))) ∧
    (coreRuns s.dev = true → ∃ t, exec (.housekeepingRound temps rails stopped) s = .next t ∧
      t.dev.lk.rounds = s.dev.lk.rounds + 1 ∧
      (F32.gt read.t (F32.ofNat 125) = false → F32.gt read.t (F32.ofNat 115) = false → t.dev.th = read) ∧
      (F32.gt read.t (F32.ofNat 125) = true → th.level < 7 → t.dev.th.level = th.level + 1) ∧
      (F32.gt read.t (F32.ofNat 125) = false → F32.gt read.t (F32.ofNat 115) = true →
        t.dev.th.level = if th.level < 5 then th.level + 1 else th.level)) ∧
    (F32.lt th.t (F32.ofNat 110) = true → th.hold = false → throttleFloor th < th.level →
      ∃ t, exec .throttleFall s = .next t ∧ t.dev.th.level = th.level - 1) ∧
    ((F32.lt th.t (F32.ofNat 110) = false ∨ th.hold = true ∨ th.level ≤ throttleFloor th) →
      exec .throttleFall s = .next (after s (fresh s))) ∧
    exec .throttleHoldEnd s = .next (after s { fresh s with th := { th with hold := false } }) ∧
    (Nat.testBit th.failed n.val = true → exec (.sensorFailed n) s = .next (after s (fresh s))) ∧
    (Nat.testBit th.failed n.val = false → ∃ t, exec (.sensorFailed n) s = .next t ∧
      t.dev.th.failed = th.failed ||| 2 ^ n.val ∧ throttleFloor t.dev.th ≤ t.dev.th.level) ∧
    (th.tdSuspect = true → exec .tdSuspect s = .next (after s (fresh s))) ∧
    (th.tdSuspect = false → ∃ t e, exec .tdSuspect s = .next t ∧ t.dev.th = { th with tdSuspect := true } ∧
      t.dev.lk.ramLog.getLast? = some e ∧ e.code = 0x007 ∧ t.dev.pe = s.dev.pe) ∧
    (Tab.get false s.dev.lk.railOut k.val = true → exec (.railOut k) s = .next (after s (fresh s))) ∧
    (Tab.get false s.dev.lk.railOut k.val = false → ∃ t e, exec (.railOut k) s = .next t ∧
      Tab.get false t.dev.lk.railOut k.val = true ∧ t.dev.lk.ramLog.getLast? = some e ∧ e.code = 0x008 ∧
      e.d0 = wd k.val ∧ t.dev.pe = s.dev.pe) ∧
    (coreRuns s.dev = true → s.dev.hif.enabled = true → s.dev.lk.hostAbsent = false → ∃ t, exec .hostAbsent s = .next t ∧
      t.dev.lk.hostAbsent = true ∧ t.dev.lk.absences = up16 s.dev.lk.absences ∧ t.dev.loops = s.dev.loops) ∧
    (coreRuns s.dev = true → exec .logFlush s = .next (after s { fresh s with
      nvm := { s.dev.nvm with cairn := capList 4224 (s.dev.nvm.cairn ++ s.dev.lk.flush) }
      lk := { s.dev.lk with flush := [] } })) ∧
    (Ready 0x0804 c s → 32 * c.count.toNat ≤ (trim c).bufLen →
      let log := if bit c.p0 0 then s.dev.lk.ramLog else cairnLog s.dev
      let es := entriesFrom log c.p1.toNat c.count.toNat
      exec (.logRead c) s = .next (replied 0x0804 c (okWith (wd es.length) (wd ((log.getLast?.map (·.seq)).getD 0)))
        (outBuf (trim c) (es.flatMap logBytes) (fresh s)) s)) ∧
    (Ready 0x0805 c s → 192 ≤ (trim c).bufLen → exec (.healthRead c) s = .next (replied 0x0805 c
      (okWith (wd th.level) (wd s.dev.integ.retired.length)) (outBuf (trim c) (healthBuffer s.dev) (fresh s)) s)) ∧
    (coreRuns s.dev = true → s.dev.lk.pfw = true →
      exec .pfiAssert s = .next (after s { fresh s with lk := { s.dev.lk with pfi := true } })) ∧
    (coreRuns s.dev = true → s.dev.lk.pfw = false → ∃ t, exec .pfiAssert s = .next t ∧ t.dev.lk.pfi = true ∧
      t.dev.lk.pfw = true ∧ t.dev.lk.flush = [] ∧ t.dev.nvm.hold = true ∧
      t.dev.lk.pfwEvents = up16 s.dev.lk.pfwEvents ∧ t.dev.pe = s.dev.pe) ∧
    exec .pfiDeassert s = .next (after s { fresh s with
      lk := { s.dev.lk with pfi := false, pfwRound := s.dev.lk.rounds } }) ∧
    ((s.dev.lk.pfw = false ∨ s.dev.lk.pfi = true) → exec .pfwClear s = .next (after s (fresh s))) ∧
    (coreRuns s.dev = true → s.dev.lk.pfw = true → s.dev.lk.pfi = false → s.dev.lk.brownout = false →
      ∃ t, exec .pfwClear s = .next t ∧ t.dev.lk.pfw = false ∧ t.dev.lk.mainsPfw = false ∧ t.dev.nvm.hold = false) ∧
    (coreRuns s.dev = true → s.dev.lk.pfw = true → s.dev.lk.pfi = false → s.dev.lk.brownout = true →
      ∃ t, exec .pfwClear s = .next t ∧ t.dev.lk.cause = s.dev.power.pendingCause.getD 7 ∧ t.dev.power.booted = false ∧
        t.dev.sec.sessions = [])

/-- BOOT, WATCHDOG, WATCHDOG_RESET_DELAY, THERMAL_SHUTDOWN, THERMAL_RESTART, POR, RESET_N, VDD_FIELD_LOSS, FIELD_DIE_POWER_UP,
CORE_RAIL_LOSS, HIF_RESET_REQUEST (parts of R331, R388, R408–R410, R418, R431–R434, R436, R437). A reset leaves a device that has
not booted, without plan, sessions or host interface, its keys and NVM records as they were, with the first cause that arose
since the last boot. BOOT does nothing on a booted device or a core die that does not run, halts where no slot boots, and else
starts the slot chosen, its cause in the banner (said here for a slot without a configuration image). The watchdog's reset
waits for a stopped reference. A shutdown closes the host interface, ends the NVM's work and drives every stage to its
fail-safe; until the restart RESET_N does nothing. A loss of VDD_FIELD keeps vault, NVM and Lock-keeper; its return restarts
the timebase at 0 and the scan. A host's reset needs its key and the image's permission, else it is logged. -/
def Obligations.PowerAndResets : Prop :=
  ∀ (b : BootInfo) (v : Word) (k : Fin 12) (f : Bool) (s : State),
    let p := s.dev.power
    let resets := fun (cause : Nat) (e : Instr) (t : State) => exec e s = .next t ∧
      t.dev.lk.cause = p.pendingCause.getD cause ∧ t.dev.power.pendingCause = some (p.pendingCause.getD cause) ∧
      t.dev.power.booted = false ∧ t.dev.pe.plan = none ∧ t.dev.hif.enabled = false ∧ t.dev.sec.sessions = [] ∧
      t.dev.sec.keys = s.dev.sec.keys ∧ t.dev.nvm.records = s.dev.nvm.records
    ((p.booted = true ∨ coreRuns s.dev = false) → exec (.boot b) s = .next (after s (fresh s))) ∧
    (p.booted = false → coreRuns s.dev = true → ∀ bad e, chooseSlot (fresh s) = (none, bad, e) →
      exec (.boot b) s = .next (after s e)) ∧
    (p.booted = false → coreRuns s.dev = true → ∀ i bad e, chooseSlot (fresh s) = (some i, bad, e) →
      imageAt e i 5 = none → ∃ t, exec (.boot b) s = .next t ∧ t.dev.power.booted = true ∧
        t.dev.power.pendingCause = none ∧ t.dev.sec.active = i ∧
        t.dev.outbox.getLast? = some (.banner s.dev.lk.cause)) ∧
    ((p.coreUp = false ∨ p.shutdown = true ∨ p.resetLow = true) → exec .watchdog s = .next (after s (fresh s))) ∧
    (p.coreUp = true → p.shutdown = false → p.resetLow = false → s.dev.tb.refRuns = true →
      ∃ t, resets 3 .watchdog t) ∧
    (p.coreUp = true → p.shutdown = false → p.resetLow = false → s.dev.tb.refRuns = false →
      exec .watchdog s = .next (after s { fresh s with power := { p with wdExpired := true } })) ∧
    (p.wdExpired = true → s.dev.tb.refRuns = true →
      ∃ t, resets 3 .watchdogResetDelay t ∧ t.dev.power.wdExpired = false) ∧
    ((p.wdExpired = false ∨ s.dev.tb.refRuns = false) → exec .watchdogResetDelay s = .next (after s (fresh s))) ∧
    (p.shutdown = true → exec (.thermalShutdown f) s = .next (after s (fresh s)) ∧
      (∀ r, exec (.resetN r) s = .next (after s (fresh s))) ∧
      ∃ t, resets 4 .thermalRestart t ∧ t.dev.power.shutdown = false ∧ t.dev.nvm.scanDone = false) ∧
    (p.shutdown = false → exec .thermalRestart s = .next (after s (fresh s)) ∧
      exec (.resetN true) s = .next (after s { fresh s with power := { p with resetLow := false } }) ∧
      (p.resetLow = true → exec (.resetN false) s = .next (after s (fresh s))) ∧
      (p.resetLow = false → ∃ t, resets 2 (.resetN false) t ∧ t.dev.power.resetLow = true) ∧
      (∃ t, exec (.thermalShutdown f) s = .next t ∧ t.dev.power.shutdown = true ∧
        t.dev.hif.enabled = false ∧ t.dev.hif.linkUp = false ∧ t.dev.nvm.queue = [] ∧ t.dev.nvm.running = none ∧
        ∀ n, n < 88 → stageState t.dev n = 2)) ∧
    (∃ t, resets 1 (.por f) t ∧ t.dev.power.coreUp = true) ∧
    (coreRail k.val = false → exec (.coreRailLoss k) s = .next (after s (fresh s))) ∧
    (coreRail k.val = true → ∃ t, resets 1 (.coreRailLoss k) t ∧ t.dev.power.coreUp = false) ∧
    (∃ t, exec .vddFieldLoss s = .next t ∧ t.dev.power = { p with fieldUp := false } ∧ t.dev.sec = s.dev.sec ∧
      t.dev.nvm = s.dev.nvm ∧ t.dev.lk = s.dev.lk) ∧
    (∃ t, exec .fieldDiePowerUp s = .next t ∧ t.dev.power.fieldUp = true ∧
      t.dev.tb.angle = 0#16 ∧ t.dev.tb.cycle = 0#32 ∧ t.dev.nvm.scanDone = false ∧ t.dev.hif.ready = false ∧
      t.dev.nvm.records = s.dev.nvm.records ∧ t.dev.pe = s.dev.pe ∧ ∀ n, n < 88 → stageState t.dev n = 2) ∧
    (bit v 1 = true → fld v 31 24 = 0x5A → s.dev.sec.hostResetOk = true → ∃ t, resets 6 (.hifResetRequest v) t) ∧
    (bit v 1 = true → (fld v 31 24 ≠ 0x5A ∨ s.dev.sec.hostResetOk = false) → ∃ t e,
      exec (.hifResetRequest v) s = .next t ∧ t.dev.lk.ramLog.getLast? = some e ∧ e.code = 0x024 ∧ e.d0 = v ∧
      t.dev.pe = s.dev.pe ∧ t.dev.power = p)

/-! ## Non-volatile memory, security -/

/-- NVM_READ, NVM_WRITE, NVM_COUNTER_READ, NVM_COUNTER_INC, NVM_PROGRAM_END, NVM_ERASE_END, NVM_SCAN_END,
COMPACTION_HOLDOFF_END, RAW_READ, RAW_PROGRAM, RAW_ERASE (parts of R365, R414–R420, R425, R427–R429). Until the scan is over the
four commands are NOT_READY. NVM_READ answers the newest copy, where it is sound and in no conflict. A write or an increment
that finds the controller idle starts; the security counters take no increment. The first end of a record's program leaves its
commit to do, the second takes a page, keeps the new copy and the newest of the old ones, and completes its command. An erase that
ends frees its sector, unless it is paused or none runs. The end of the scan makes the memory ready and sets the recovery
mode and the torn count. After the hold-off an automatic pass starts below 410 erased pages and not otherwise. A raw read copies
its page once the scan is over; a raw program of no or too many bytes, or of a page that is not erased, sets ERR; a raw
program or erase starts on an idle controller and waits on a busy one. -/
def Obligations.NvmCommands : Prop :=
  ∀ (c : HostCmd) (v : Word) (found : List ScanCopy) (torn : Nat) (s : State),
    let n := s.dev.nvm
    let id := c.target.toNat
    let idle := nvmFree n = true ∧ n.queue = []
    (n.scanDone = false →
      (Ready 0x0701 c s → exec (.nvmRead c) s = .next (replied 0x0701 c (fail stNotReady) (fresh s) s)) ∧
      (Ready 0x0702 c s → exec (.nvmWrite c) s = .next (replied 0x0702 c (fail stNotReady) (fresh s) s)) ∧
      (Ready 0x0704 c s → exec (.nvmCounterRead c) s = .next (replied 0x0704 c (fail stNotReady) (fresh s) s)) ∧
      (Ready 0x0705 c s → exec (.nvmCounterInc c) s = .next (replied 0x0705 c (fail stNotReady) (fresh s) s))) ∧
    (n.scanDone = true → id < 1024 → 240 ≤ (trim c).bufLen → Ready 0x0701 c s →
      (copiesOf n id = [] → exec (.nvmRead c) s = .next (replied 0x0701 c (fail stNotFound (wd id)) (fresh s) s)) ∧
      (∀ x, newestCopy (copiesOf n id) = some x → inConflict (copiesOf n id) = false → x.bad = false →
        exec (.nvmRead c) s = .next (replied 0x0701 c (okWith (wd x.payload.length) (wd x.seq))
          (outBuf (trim c) x.payload (fresh s)) s))) ∧
    (∀ a, idle → id < 1024 → (trim c).bufLen ≠ 0 → (trim c).bufLen ≤ 240 → writePoint n = some a → Ready 0x0702 c s →
      exec (.nvmWrite c) s = .next (awaiting 0x0702 c { fresh s with
        nvm := { n with running := some (.record id (trim c).buf (some (trim c))), step2 := false } } s)) ∧
    (n.scanDone = true → id < 128 → Ready 0x0704 c s → exec (.nvmCounterRead c) s = .next (replied 0x0704 c
      (okWith (wd (Tab.get 0 n.counters id)) (wd (Tab.get 0 n.counters id / 4294967296))) (fresh s) s)) ∧
    (n.scanDone = true → id < 64 → Ready 0x0705 c s →
      exec (.nvmCounterInc c) s = .next (replied 0x0705 c (fail stConflict) (fresh s) s)) ∧
    (idle → 64 ≤ id → id < 128 → Ready 0x0705 c s → exec (.nvmCounterInc c) s = .next (awaiting 0x0705 c
      { fresh s with nvm := { n with running := some (.counter id (some (trim c))), step2 := false } } s)) ∧
    (∀ p b, n.running = some (.record p b none) → n.step2 = false → exec .nvmProgramEnd s = .next (after s
      (settle (nvmGo (autoCompact { fresh s with nvm := { n with step2 := true } }))))) ∧
    (∀ p b a m cmd, n.running = some (.record p b cmd) → n.step2 = true →
      takePage { n with running := none, step2 := false } = some (a, m) →
        let y : Copy := { seq := topSeq (copiesOf n p) + 1, payload := b, page := a }
        let e := { fresh s with nvm := { m with records := Tab.put m.records p (addCopy y (copiesOf n p)) } }
        exec .nvmProgramEnd s = .next (after s (settle (nvmGo (autoCompact (match cmd with
          | some x => finish 0x0702 x (okWith (wd y.seq)) e
          | none => e)))))) ∧
    (n.erasePaused = true → exec .nvmEraseEnd s = .next (after s (fresh s))) ∧
    (n.erasing = none → exec .nvmEraseEnd s = .next (after s (fresh s))) ∧
    (∀ k, n.erasing = some k → n.erasePaused = false → exec .nvmEraseEnd s = .next (after s
      (settle (nvmGo (closeAuto { fresh s with nvm := eraseSector k n }))))) ∧
    (n.scanDone = true → exec (.nvmScanEnd found torn) s = .next (after s (fresh s))) ∧
    (n.scanDone = false → ∃ t, exec (.nvmScanEnd found torn) s = .next t ∧ t.dev.nvm.scanDone = true ∧
      t.dev.nvm.mode = n.option ∧ t.dev.nvm.torn = min 255 torn ∧ t.dev.hif.ready = s.dev.power.booted ∧
      (found = [] → t.dev.nvm.discarded = 0 ∧ t.dev.nvm.completed = 0)) ∧
    (410 ≤ freePages n → exec .compactionHoldoffEnd s = .next (after s
      { fresh s with lop := { s.dev.lop with compactHoldoff := false } })) ∧
    (freePages n < 410 → n.compacting = false → n.hold = false →
      (s.dev.lop.slots.any fun p => p.2.opcode == 0x0703 && p.2.st != 4) = false →
      ∃ t, exec .compactionHoldoffEnd s = .next t ∧ t.dev.lop.autoCompact = true ∧ t.dev.lop.compactHoldoff = false ∧
        t.dev.nvm.compacting = true) ∧
    (n.scanDone = true → exec (.rawRead v) s = .next (after s { fresh s with
      nvm := rawCopy (fld v 10 0) { n with rawCtrl := rawGo 1 v &&& rawMask } })) ∧
    (n.scanDone = false → exec (.rawRead v) s = .next (after s { fresh s with nvm := { n with
      rawCtrl := rawGo 1 v &&& rawMask, queue := n.queue ++ [.rawRead (fld v 10 0)] } })) ∧
    ((fld v 23 16 = 0 ∨ 252 < fld v 23 16) → exec (.rawProgram v) s = .next (after s { fresh s with
      nvm := { n with rawCtrl := rawGo 2 v &&& rawMask, rawErr := true } })) ∧
    (idle → fld v 23 16 ≠ 0 → fld v 23 16 ≤ 252 → (rawPage n (fld v 10 0)).all (· == 0xFF#8) = true →
      exec (.rawProgram v) s = .next (after s { fresh s with nvm := { n with
        rawCtrl := rawGo 2 v &&& rawMask, step2 := false
        running := some (.rawProgram (fld v 10 0) (rawBytes n (fld v 23 16))) } })) ∧
    (idle → fld v 23 16 ≠ 0 → fld v 23 16 ≤ 252 → (rawPage n (fld v 10 0)).all (· == 0xFF#8) = false →
      exec (.rawProgram v) s = .next (after s { fresh s with nvm := { n with
        rawCtrl := rawGo 2 v &&& rawMask, rawErr := true } })) ∧
    (nvmFree n = false → fld v 23 16 ≠ 0 → fld v 23 16 ≤ 252 → exec (.rawProgram v) s = .next (after s { fresh s with
      nvm := { n with rawCtrl := rawGo 2 v &&& rawMask
                      queue := n.queue ++ [.rawProgram (fld v 10 0) (rawBytes n (fld v 23 16))] } })) ∧
    (nvmFree n = false → exec (.rawErase v) s = .next (after s { fresh s with nvm := { n with
      rawCtrl := rawGo 3 v &&& rawMask, queue := n.queue ++ [.rawErase (fld v 10 0 / 16)] } })) ∧
    (idle → exec (.rawErase v) s = .next (after s { fresh s with
      nvm := { n with rawCtrl := rawGo 3 v &&& rawMask, erasing := some (384 + fld v 10 0 / 16) } }))

/-- SESSION_OPEN, SESSION_CLOSE, SESSION_IDLE_EXPIRY, KEY_ENROLL, ENVELOPE_SET, ATTEST, IMAGE_ACTIVATE, TRIAL_CONFIRMATION, MEMPLAN
(parts of R361, R365, R374–R377, R380–R382, R387, R388). SESSION_OPEN by an empty key slot is AUTH_FAIL 1, by a bad signature
AUTH_FAIL 6, both counted; a good one takes a free session, or fails NO_CAPACITY. A close or an idle expiry removes the
session. KEY_ENROLL puts a key into its slot or removes it, and closes the sessions of the old one, but keeps the last key with
the KEYS permission; an OEM key is enrolled once; a trust anchor is stored. ENVELOPE_SET refuses a bad word, stores an envelope
that holds the point's fail value and default while fewer than 4,096 are set, and removes it where all its words are zero.
ATTEST writes the signed statement, or the certificate chain. IMAGE_ACTIVATE confirms a TRIAL slot, defers to the
other slot where that is valid, and is a CONFLICT else; the confirmation delay confirms a TRIAL slot too. A plan is accepted
once, and one that its checks refuse changes nothing. -/
def Obligations.Security : Prop :=
  ∀ (c : HostCmd) (i : Fin 8) (s : State),
    let k := c.target.toNat
    let b := (trim c).buf
    (Ready 0x0901 c s → 16 ≤ k → exec (.sessionOpen c) s = .next (replied 0x0901 c (badField 8) (fresh s) s)) ∧
    (Ready 0x0901 c s → k < 16 → 0 < fld c.p0 11 0 → fld c.p0 11 0 ≤ 3600 → 256 ≤ (trim c).bufLen →
      (Tab.find s.dev.sec.keys k = none → exec (.sessionOpen c) s =
        .next (replied 0x0901 c (fail stAuthFail 1#32) (countAuth true (fresh s)) s)) ∧
      (∀ key n, Tab.find s.dev.sec.keys k = some key → freeSession s.dev = some n →
        let point := Config.onP256 (b.take 64)
        let sig := Config.ecdsaP256Ok key.pub (Config.sha256 (Config.serial ++ b.take 64)) ((b.drop 64).take 64)
        ∃ d x, exec (.sessionOpen c) s = .next (replied 0x0901 c x d s) ∧ d.sec.keys = s.dev.sec.keys ∧
          (point = false → x = badBuf 0 ∧ d = fresh s) ∧
          (point = true → sig = false → x = fail stAuthFail 6#32 ∧ d = countAuth true (fresh s)) ∧
          (point = true → sig = true → x = okWith (wd n) ∧ ∃ y, Tab.find d.sec.sessions n = some y ∧ y.opKey = k ∧
            y.limit = fld c.p0 11 0 ∧ y.lastUse = runSec s.dev ∧ y.highest = 0)) ∧
      (∀ key, Tab.find s.dev.sec.keys k = some key → freeSession s.dev = none → Config.onP256 (b.take 64) = true →
        Config.ecdsaP256Ok key.pub (Config.sha256 (Config.serial ++ b.take 64)) ((b.drop 64).take 64) = true →
        exec (.sessionOpen c) s = .next (replied 0x0901 c (fail stNoCapacity) (fresh s) s))) ∧
    (Ready 0x0902 c s → k < 8 →
      (Tab.find s.dev.sec.sessions k = none →
        exec (.sessionClose c) s = .next (replied 0x0902 c (fail stNotFound c.target) (fresh s) s)) ∧
      (Tab.find s.dev.sec.sessions k ≠ none →
        exec (.sessionClose c) s = .next (replied 0x0902 c ok (closeSession k (fresh s)) s))) ∧
    exec (.sessionIdleExpiry i) s = .next (after s { fresh s with
      sec := { s.dev.sec with sessions := Tab.del s.dev.sec.sessions i.val } }) ∧
    (Ready 0x0903 c s → k < 16 → 68 ≤ (trim c).bufLen →
      ((b.take 64).all (· == 0#8) = true → lastKeys s.dev k = true →
        exec (.keyEnroll c) s = .next (replied 0x0903 c (fail stConflict) (fresh s) s)) ∧
      ((b.take 64).all (· == 0#8) = true → lastKeys s.dev k = false →
        ∃ d, exec (.keyEnroll c) s = .next (replied 0x0903 c ok d s) ∧ Tab.find d.sec.keys k = none ∧
          ∀ e ∈ d.sec.sessions, e.2.opKey ≠ k) ∧
      ((b.take 64).all (· == 0#8) = false → inMask (wordAt b 64) permMask = true →
        ∃ d x, exec (.keyEnroll c) s = .next (replied 0x0903 c x d s) ∧
          (Config.onP256 (b.take 64) = false → x = badBuf 0 ∧ d = fresh s) ∧
          (Config.onP256 (b.take 64) = true → x = ok ∧ (∀ e ∈ d.sec.sessions, e.2.opKey ≠ k) ∧
            ∃ y, Tab.find d.sec.keys k = some y ∧ y.pub = b.take 64 ∧ y.mask = (wordAt b 64).toNat ∧ y.highest = 0))) ∧
    (Ready 0x0903 c s → k = 0x100 → 96 ≤ (trim c).bufLen →
      (s.dev.sec.oemKey = none → exec (.keyEnroll c) s = .next (replied 0x0903 c ok
        { fresh s with sec := { s.dev.sec with oemKey := some (b.take 96) } } s)) ∧
      (s.dev.sec.oemKey ≠ none → exec (.keyEnroll c) s = .next (replied 0x0903 c (fail stConflict) (fresh s) s))) ∧
    (Ready 0x0903 c s → k = 0x202 → (trim c).bufLen ≠ 0 → (trim c).bufLen ≤ 2048 → exec (.keyEnroll c) s =
      .next (replied 0x0903 c ok { fresh s with sec := { s.dev.sec with scAnchor := some b } } s)) ∧
    (∀ r, Ready 0x0904 c s → recOf s.dev k = some r → 16 ≤ (trim c).bufLen →
      (∀ o, envelopeFault k b = some o → exec (.envelopeSet c) s = .next (replied 0x0904 c (badBuf o) (fresh s) s)) ∧
      (envelopeFault k b = none → F32.isZero (wordAt b 0) = false →
        (Tab.find s.dev.sec.envelopes k ≠ none ∨ s.dev.sec.envelopes.length < 4096) →
        ((failValue s.dev k).map (outside (wordAt b 0) (wordAt b 4))).getD false = false →
        (commandable r && outside (wordAt b 0) (wordAt b 4) (prioOf s.dev r).dflt) = false →
        exec (.envelopeSet c) s = .next (replied 0x0904 c ok { fresh s with sec := { s.dev.sec with
          envelopes := Tab.put s.dev.sec.envelopes k ⟨wordAt b 0, wordAt b 4, wordAt b 8⟩ } } s)) ∧
      (envelopeFault k b = none → F32.isZero (wordAt b 0) = true → F32.isZero (wordAt b 4) = true →
        F32.isZero (wordAt b 8) = true → exec (.envelopeSet c) s = .next (replied 0x0904 c ok { fresh s with
          sec := { s.dev.sec with envelopes := Tab.del s.dev.sec.envelopes k } } s))) ∧
    (Ready 0x0905 c s → c.target = 0#32 → 256 ≤ (trim c).bufLen → exec (.attest c) s = .next (replied 0x0905 c ok
      (outBuf (trim c) (statement (fixLen 32 b) s.dev ++ identitySign (statement (fixLen 32 b) s.dev)) (fresh s)) s)) ∧
    (Ready 0x0905 c s → c.target = 1#32 → (Config.certChain.take 2048).length ≤ (trim c).bufLen → exec (.attest c) s =
      .next (replied 0x0905 c (okWith (wd (Config.certChain.take 2048).length))
        (outBuf (trim c) (Config.certChain.take 2048) (fresh s)) s)) ∧
    (Ready 0x0905 c s → 2 ≤ k → exec (.attest c) s = .next (replied 0x0905 c (badField 8) (fresh s) s)) ∧
    (Ready 0x0907 c s →
      (k = s.dev.sec.active → s.dev.sec.trial = true → ∃ d, exec (.imageActivate c) s = .next (replied 0x0907 c ok d s) ∧
        d.sec.trial = false ∧ d.sec.confirmed = k :: s.dev.sec.confirmed) ∧
      (k < 2 → k ≠ s.dev.sec.active → slotValid s.dev k = true → exec (.imageActivate c) s =
        .next (replied 0x0907 c (fail stDeferred) { fresh s with sec := { s.dev.sec with next := k } } s)) ∧
      ((k = s.dev.sec.active ∧ s.dev.sec.trial = false ∨ k ≠ s.dev.sec.active ∧ (2 ≤ k ∨ slotValid s.dev k = false)) →
        exec (.imageActivate c) s = .next (replied 0x0907 c (fail stConflict) (fresh s) s))) ∧
    ((s.dev.power.booted = false ∨ s.dev.sec.trial = false) → exec .trialConfirmation s = .next (after s (fresh s))) ∧
    (s.dev.power.booted = true → s.dev.sec.trial = true → ∃ t e, exec .trialConfirmation s = .next t ∧
      t.dev.sec.trial = false ∧ t.dev.sec.confirmed = s.dev.sec.active :: s.dev.sec.confirmed ∧
      t.dev.lk.ramLog.getLast? = some e ∧ e.code = 0x020) ∧
    (Ready 0x0807 c s → s.dev.pe.plan ≠ none →
      exec (.memplan c) s = .next (replied 0x0807 c (fail stConflict) (fresh s) s)) ∧
    (Ready 0x0807 c s → s.dev.pe.plan = none → 32 ≤ (trim c).bufLen →
      (∀ x, planRefused b = some x → exec (.memplan c) s = .next (replied 0x0807 c x (fresh s) s)) ∧
      (planRefused b = none → exec (.memplan c) s = .next (replied 0x0807 c
        (okWith (wd (usableMib - (regionMib (planOf b)).sum)) (wd usableMib))
        { fresh s with pe := { s.dev.pe with plan := some (planOf b) } } s)))

/-- REG_READ, REG_WRITE, REGISTER_WRITE (parts of R6, R32, R322, R360, R394). REG_READ answers the register, and an unaligned address
with BAD_FORMAT, one outside the map with NOT_FOUND. REG_WRITE of a register of another owner is RESOURCE_BUSY, of the security
block a CONFLICT; of TB_SCALE it writes the word and answers it, and with a mask of 0 nothing. A write of a register changes
nothing outside the map or against its owner; an unaligned one to BAR0 sets WRERR, and HIF_STATUS clears it by a written 1;
BELAY_CFG takes its preferences while no pair is formed. -/
def Obligations.Registers : Prop :=
  ∀ (c : HostCmd) (a v : Word) (p : Path) (s : State),
    let t := c.target.toNat
    (Ready 0x0801 c s → t % 4 ≠ 0 → exec (.regRead c) s = .next (replied 0x0801 c (badField 8) (fresh s) s)) ∧
    (∀ w d, Ready 0x0801 c s → t % 4 = 0 → readReg .reg t (fresh s) = some (w, d) →
      exec (.regRead c) s = .next (replied 0x0801 c (okWith w) d s)) ∧
    (Ready 0x0801 c s → t % 4 = 0 → readReg .reg t (fresh s) = none →
      exec (.regRead c) s = .next (replied 0x0801 c (fail stNotFound c.target) (fresh s) s)) ∧
    (Ready 0x0802 c s → t % 4 ≠ 0 → exec (.regWrite c) s = .next (replied 0x0802 c (badField 8) (fresh s) s)) ∧
    (Ready 0x0802 c s → t % 4 = 0 → t / 0x100000 = 0x19 →
      exec (.regWrite c) s = .next (replied 0x0802 c (fail stConflict) (fresh s) s)) ∧
    (∀ o r, Ready 0x0802 c s → t % 4 = 0 → t / 0x100000 ≠ 0x19 → viewReg .reg t (fresh s) ≠ none →
      releaseCheck (regResources t) ownHost (fresh s) = some (.busy o r) →
      exec (.regWrite c) s = .next (replied 0x0802 c (fail stBusy o (wd r)) (fresh s) s)) ∧
    (Ready 0x0802 c s → t = 0x01000024 → c.p1 = 0xFFFFFFFF#32 → exec (.regWrite c) s =
      .next (replied 0x0802 c (okWith c.p0) { fresh s with tb := { s.dev.tb with scale := c.p0 } } s)) ∧
    (Ready 0x0802 c s → t = 0x01000024 → c.p1 = 0#32 → exec (.regWrite c) s =
      .next (replied 0x0802 c (okWith s.dev.tb.scale) (fresh s) s)) ∧
    (a.toNat % 4 ≠ 0 → exec (.registerWrite .bar0 a v p) s = .next (after s
      { fresh s with hif := { s.dev.hif with wrErr := true } })) ∧
    (exec (.registerWrite .bar0 0x24#32 v p) s = .next (after s (settle
      { fresh s with hif := { s.dev.hif with wrErr := s.dev.hif.wrErr && !bit v 4 } }))) ∧
    (releaseCheck (regResources a.toNat) (pathOwner p) (fresh s) ≠ none →
      exec (.registerWrite .block a v p) s = .next (after s (fresh s))) ∧
    (viewReg p a.toNat (fresh s) = none → a ≠ 0x01100008#32 →
      exec (.registerWrite .block a v p) s = .next (after s (fresh s))) ∧
    (s.dev.pair.enabled = false → exec (.registerWrite .block 0x01700000#32 v p) s = .next (after s (settle
      { fresh s with belay := { s.dev.belay with cfg := rwMask (belayCfg s.dev) v 0xFFFFFFFF#32 &&& 0xFF#32 } })))

/-! ## Towpath -/

/-- The console reports `id`, `health`, `temp`, `rails`, `mains`, `rtc`, `log`, `claim`, `point`, `ui`, `counters` and `reset
cause`, a line that is no command, and technician access (parts of R376, R393, R441–R443, R445, R446, R449, R450). Before the device
has booted no line is answered; in the middle of an enrolment a line ends it. Each report is answered in one reply, `rtc` from a
snapshot of the clock. Without a technician secret the forms of `auth` but `enroll` are NOT_READY; while blocked those that open
access answer the seconds left. A challenge draws two random words; the right token opens access once, a wrong one is counted
and the third in a row blocks. `auth off` and 30 idle minutes end access and a debug unlock. `auth enroll` takes the key of a
device in debug state OPEN without one, four lines of 16 bytes, and the confirming code within its time. -/
def Obligations.TowpathReportsAndAccess : Prop :=
  ∀ (n : Fin 48) (id : Word) (half : List Byte) (code : Nat) (s : State),
    let h := heard (fresh s)
    let t := s.dev.tow
    let on := consoleOn s.dev = true
    let ready := on ∧ t.enroll = none
    let tells := fun (e : Instr) (good : Bool) (w : String) (vs : List Nat) =>
      exec e s = .next (after s (settle { h with outbox := [.console good w vs] }))
    let lines : List Instr := [.towpathId, .towpathHealth, .towpathTemp, .towpathRails, .towpathMains, .towpathRtc,
      .towpathLog none, .towpathClaim, .towpathPoint id, .towpathUi n, .towpathCounters, .towpathResetCause, .towpathAuth,
      .towpathAuth2, .towpathAuthToken code, .towpathAuthOff, .towpathAuthEnroll, .towpathUnknownLine .unknown]
    (consoleOn s.dev = false → ∀ e ∈ lines, exec e s = .next (after s (fresh s))) ∧
    (on → t.enroll ≠ none → ∀ e ∈ lines, exec e s =
      .next (after s { endEnroll h with outbox := [.console false "AUTH_FAIL" []] })) ∧
    (ready →
      tells .towpathId true "id" [Config.siliconMajor.toNat, Config.siliconMinor.toNat, s.dev.sec.debug, s.dev.sec.active,
        b2n s.dev.sec.trial] ∧
      (∃ vs, tells .towpathHealth true "health" vs) ∧
      tells .towpathTemp true "temp" (((List.range 17).flatMap fun k =>
        [(effTemp s.dev k).toNat, b2n (decide (k < 16) && (condemned s.dev.th).contains k)]) ++ [s.dev.th.level]) ∧
      tells .towpathRails true "rails" (((List.range 12).flatMap fun k =>
        [(Tab.get 0#32 s.dev.lk.rails k).toNat, b2n (!railOutside k (Tab.get 0#32 s.dev.lk.rails k))]) ++
        [b2n (!s.dev.lk.pfi)]) ∧
      tells .towpathMains true "mains" [tbStateCode s.dev.tb.st, s.dev.tb.mode, s.dev.tb.rate.toNat, (mainsRms s.dev).toNat,
        s.dev.tb.ofs.toNat, s.dev.tb.err.toNat, s.dev.tb.glitch, s.dev.tb.missed] ∧
      (∃ u vs, exec .towpathRtc s = .next u ∧ u.dev.clk.snapTow = s.dev.clk.now ∧ u.dev.clk.now = s.dev.clk.now ∧
        exec .towpathRtc s = .next (after s (settle { latchFields .towpath h with outbox := [.console true "rtc" vs] }))) ∧
      tells (.towpathLog none) true "log" ((capList 16 s.dev.lk.ramLog).reverse.flatMap entryWords) ∧
      tells (.towpathLog (some id)) true "log" ((entriesFrom s.dev.lk.ramLog id.toNat 16).flatMap entryWords) ∧
      (∃ vs, tells .towpathClaim true "claim" (s.dev.belay.ownerUnit :: vs)) ∧
      (s.dev.pe.plan = none → tells (.towpathPoint id) false "NOT_READY" []) ∧
      (s.dev.pe.plan ≠ none → recOf s.dev id.toNat = none → tells (.towpathPoint id) false "NOT_FOUND" [id.toNat]) ∧
      (∀ r, s.dev.pe.plan ≠ none → recOf s.dev id.toNat = some r → checkOk id.toNat r = true →
        tells (.towpathPoint id) true "point"
          [id.toNat, r.value.toNat, recQ r, r.kind, r.prio, r.stamp.cycle.toNat, r.stamp.angle.toNat, 1]) ∧
      (∃ vs, tells (.towpathUi n) true "UI" (n.val :: uiMode (uiOf s.dev n.val) :: vs)) ∧
      (∃ vs, tells .towpathCounters true "counters" vs) ∧
      tells .towpathResetCause true "cause" [s.dev.lk.cause] ∧
      tells (.towpathUnknownLine .unknown) false "BAD_OPCODE" [] ∧ tells (.towpathUnknownLine .tooLong) false "BAD_FORMAT" [] ∧
      (s.dev.sec.techSecret = none → ∀ e ∈ [Instr.towpathAuth, .towpathAuth2, .towpathAuthToken code, .towpathAuthOff],
        tells e false "NOT_READY" []) ∧
      (∀ k, s.dev.sec.techSecret = some k → t.blocked = true →
        ∀ e ∈ [Instr.towpathAuth, .towpathAuth2, .towpathAuthToken code], tells e false "AUTH_FAIL" [blockLeft s.dev]) ∧
      (∀ k, s.dev.sec.techSecret = some k → t.blocked = false →
        (∀ l e, (l, e) ∈ [(1, Instr.towpathAuth), (2, .towpathAuth2)] → ∃ u, exec e s = .next u ∧
          u.dev.tow.challenge = some (challengeWords s.dev, l, runSec s.dev) ∧ u.dev.sec.draws = s.dev.sec.draws + 2) ∧
        (∀ w i, t.challenge = some (w, 1, i) → code = tokenOf k w 1 → ∃ u, exec (.towpathAuthToken code) s = .next u ∧
          u.dev.tow.tech = true ∧ u.dev.tow.challenge = none ∧ u.dev.tow.wrongRun = 0 ∧ u.dev.sec.debug = s.dev.sec.debug) ∧
        (∀ w l i, t.challenge = some (w, l, i) → code ≠ tokenOf k w l → ∃ u, exec (.towpathAuthToken code) s = .next u ∧
          u.dev.tow.tech = t.tech ∧ u.dev.tow.challenge = none ∧ u.dev.tow.wrongRun = t.wrongRun + 1 ∧
          (u.dev.tow.blocked = true ↔ 2 ≤ t.wrongRun))) ∧
      (∀ k, s.dev.sec.techSecret = some k → t.services = [] → ∃ u, exec .towpathAuthOff s = .next u ∧
        u.dev.tow.tech = false ∧ u.dev.sec.debug = (if s.dev.sec.debug = 2 then 1 else s.dev.sec.debug)) ∧
      (s.dev.sec.debug = 0 → s.dev.sec.keys = [] → ∃ u, exec .towpathAuthEnroll s = .next u ∧
        u.dev.tow.enroll = some [] ∧ u.dev.sec = s.dev.sec) ∧
      (s.dev.sec.debug ≠ 0 → tells .towpathAuthEnroll false "CONFLICT" [])) ∧
    (on → t.enroll = none → exec (.towpathEnrollKeyLine half) s =
      .next (after s { h with outbox := [.console false "BAD_OPCODE" []] })) ∧
    (∀ k, on → t.enroll = some k → half.length = 16 → k.length < 48 → exec (.towpathEnrollKeyLine half) s =
      .next (after s { h with tow := { h.tow with enroll := some (k ++ half) } })) ∧
    (∀ k, on → t.enroll = some k → half.length = 16 → k.length = 48 →
      (Config.onP256 (k ++ half) = true → exec (.towpathEnrollKeyLine half) s = .next (after s { h with
        outbox := [.console true "confirm" [confirmCode (k ++ half)]]
        tow := { h.tow with enroll := some (k ++ half), confirmAt := some (runSec s.dev) } })) ∧
      (Config.onP256 (k ++ half) = false → exec (.towpathEnrollKeyLine half) s = .next (after s
        { endEnroll h with outbox := [.console false "BAD_FORMAT" []] }))) ∧
    (∀ k i, on → t.enroll = some k → t.confirmAt = some i → k.length = 64 → code = confirmCode k →
      ∃ u x, exec (.towpathAuthConfirm code) s = .next u ∧ Tab.find u.dev.sec.keys 0 = some x ∧ x.pub = k ∧ x.mask = 63 ∧
        u.dev.sec.debug = 1 ∧ u.dev.tow.enroll = none) ∧
    (∀ k, on → t.enroll = some k → code ≠ confirmCode k → exec (.towpathAuthConfirm code) s =
      .next (after s { endEnroll h with outbox := [.console false "AUTH_FAIL" []] })) ∧
    (t.enroll = none → exec .enrollTimeout s = .next (after s (fresh s))) ∧
    (t.enroll ≠ none → ∃ u, exec .enrollTimeout s = .next u ∧ u.dev.tow.enroll = none ∧ u.dev.sec = s.dev.sec) ∧
    (t.services = [] → ∃ u, exec .towpathIdleTimeout s = .next u ∧ u.dev.tow.tech = false ∧ u.dev.tow.atb = none ∧
      u.dev.sec.debug = (if s.dev.sec.debug = 2 then 1 else s.dev.sec.debug)) ∧
    exec .authBlockEnd s = .next (after s { fresh s with tow := { t with blocked := false, blockFor := 0 } }) ∧
    exec .challengeExpiry s = .next (after s { fresh s with tow := { t with challenge := none } })

/-- `ao`, `coil … test`, `tg`, `fan`, `release`, `selftest`, `peek`, `poke`, `ui … now`, `coil … diag`, `atb`, `atb off`, `baud` and the
return of the line rate (parts of R207, R392, R440, R444, R445, R447, R448, R451). A Service command without access is
AUTH_REQUIRED. A service write needs a plan and the die link, and one that the stage accepts answers the value applied; `coil …
test` refuses a current outside the span and else waits for the channel; `release` needs a held output and answers it.
`selftest` starts the test of a unit in service. `peek` reads a register that may be read, in one word or two halves; `poke`
needs debug open and answers the register. `ui … now` and `coil … diag` start an urgent conversion or a diagnostic cycle.
`atb` takes the route unless another owner has it; `atb off` frees it. `baud` changes the rate, and the old one returns where no
line has come. -/
def Obligations.TowpathService : Prop :=
  ∀ (a : Fin 16) (g : Fin 8) (ch n : Fin 48) (v w m : Word) (rate ma : Nat) (o : OutRef) (src : AtbSource) (b : Bool)
    (s : State),
    let h := heard (fresh s)
    let t := s.dev.tow
    let ready := consoleOn s.dev = true ∧ t.enroll = none
    let allowed := ready ∧ (s.dev.sec.debug = 0 ∨ t.tech = true)
    let tells := fun (e : Instr) (good : Bool) (x : String) (vs : List Nat) =>
      exec e s = .next (after s (settle { h with outbox := [.console good x vs] }))
    let writes : List Instr := [.towpathAo a v, .towpathTg a v, .towpathFan g v]
    let works := s.dev.pe.plan ≠ none ∧ s.dev.link.coreLost = false ∧ s.dev.pe.p0 = true ∧ s.dev.pe.testing = false ∧
      t.services.length < 16
    let put := fun (id : Nat) => consolePoint id (.write v qGood none 1) (holdService id h)
    (ready → s.dev.sec.debug ≠ 0 → t.tech = false →
      ∀ e ∈ writes ++ [.towpathCoilTest ch ma, .towpathRelease o, .towpathSelftest w], tells e false "AUTH_REQUIRED" []) ∧
    (allowed → s.dev.pe.plan = none → ∀ e ∈ writes, tells e false "NOT_READY" []) ∧
    (allowed → s.dev.pe.plan ≠ none → s.dev.link.coreLost = true → ∀ e ∈ writes, tells e false "HW_FAULT" []) ∧
    (∀ d, allowed → works → put (aoId a.val) = (some .accepted, none, d) → exec (.towpathAo a v) s =
      .next (after s (settle { d with outbox := d.outbox ++ [.console true "ao" [a.val, (aoOf d a.val).applied.toNat]] }))) ∧
    (∀ d, allowed → works → put (tgId a.val) = (some .accepted, none, d) → exec (.towpathTg a v) s =
      .next (after s (settle { d with outbox := d.outbox ++ [.console true "tg" [a.val, (tgOf d a.val).value.toNat]] }))) ∧
    (∀ d, allowed → works → put (fanId g.val) = (some .accepted, none, d) → exec (.towpathFan g v) s =
      .next (after s (settle { d with outbox := d.outbox ++ [.console true "fan" [g.val, (fanOf d g.val).applied.toNat]] }))) ∧
    (allowed → testX (chanOf s.dev ch.val) ma = none → tells (.towpathCoilTest ch ma) false "BAD_FORMAT" []) ∧
    (∀ x d, allowed → works → testX (chanOf s.dev ch.val) ma = some x →
      (let id := predefBase + coilPoint ch.val 0
       consolePoint id (.write x qGood none 1) (holdService id { h with tow := { h.tow with coilWait := some (ch.val, false) } }) =
         (some .accepted, none, d)) → d.tow.coilWait = some (ch.val, true) →
      exec (.towpathCoilTest ch ma) s = .next (after s (settle d))) ∧
    (allowed → t.services.contains (outPoint o) = false → tells (.towpathRelease o) false "NOT_FOUND" [outPoint o]) ∧
    (∀ r d, allowed → t.services.contains (outPoint o) = true → pipesServe s.dev = true →
      consolePoint (outPoint o) (.relinquish 1) (dropService (outPoint o) h) = (r, none, d) → exec (.towpathRelease o) s =
      .next (after s (settle { d with outbox := d.outbox ++ [.console true "release" (outNow d o)] }))) ∧
    (allowed → unitKnown w.toNat = false → tells (.towpathSelftest w) false "BAD_FORMAT" []) ∧
    (allowed → unitKnown w.toNat = true → retired s.dev w.toNat = false → exec (.towpathSelftest w) s =
      .next (after s (settle (dispatchTest w.toNat { blankTest with console := true } h)))) ∧
    (ready → v.toNat % 4 ≠ 0 → tells (.towpathPeek v b) false "BAD_FORMAT" [] ∧ tells (.towpathPoke v w m) false "BAD_FORMAT" []) ∧
    (ready → v.toNat % 4 = 0 → debugOpen s.dev = false → tells (.towpathPoke v w m) false "AUTH_REQUIRED" []) ∧
    (∀ x d, ready → v.toNat % 4 = 0 → (debugOpen s.dev = true ∨ readOnlyReg v.toNat = true) →
      readReg .towpath v.toNat h = some (x, d) →
      exec (.towpathPeek v false) s =
        .next (after s (settle { d with outbox := d.outbox ++ [.console true "peek" [x.toNat]] })) ∧
      exec (.towpathPeek v true) s = .next (after s (settle
        { d with outbox := d.outbox ++ [.console true "peek" [x.toNat % 65536, x.toNat / 65536]] }))) ∧
    (∀ x d, ready → v.toNat % 4 = 0 → debugOpen s.dev = true → guardedWrite .towpath srcLk v.toNat w m h = (okWith x, d) →
      exec (.towpathPoke v w m) s = .next (after s (settle { d with outbox := d.outbox ++ [.console true "poke" [x.toNat]] }))) ∧
    (ready → s.dev.link.coreLost = true → tells (.towpathUiNow n) false "HW_FAULT" [] ∧
      tells (.towpathCoilDiag ch) false "HW_FAULT" []) ∧
    (∀ d, ready → s.dev.link.coreLost = false → 1 ≤ uiMode (uiOf s.dev n.val) → uiMode (uiOf s.dev n.val) ≤ 4 →
      retired s.dev (unitAdc (uiAdc n.val)) = false → requestUrgent (uiAdc n.val) (.readNow n.val none) h = some d →
      exec (.towpathUiNow n) s = .next (after s (settle d))) ∧
    (ready → s.dev.link.coreLost = false → exec (.towpathCoilDiag ch) s =
      .next (after s (settle (startDiag ch.val { h with tow := { h.tow with diagCh := some ch.val } })))) ∧
    (ready → claimCheck [resAtb] srcLk s.dev = none → ∃ u, exec (.towpathAtb src) s = .next u ∧ u.dev.tow.atb = some src ∧
      ownerOf u.dev resAtb = some srcLk ∧ u.dev.pe.queue = s.dev.pe.queue) ∧
    (ready → ∃ u, exec .towpathAtbOff s = .next u ∧ u.dev.tow.atb = none ∧
      (∀ x, ownerOf s.dev resAtb = some x → x ≠ srcLk → ownerOf u.dev resAtb = some x)) ∧
    (ready → baudRates.contains rate = true → exec (.towpathBaud rate) s = .next (after s (settle { h with
      outbox := [.console true "baud" [rate]], tow := { h.tow with baud := rate, baudPending := true } }))) ∧
    (ready → baudRates.contains rate = false → tells (.towpathBaud rate) false "BAD_FORMAT" []) ∧
    (t.baudPending = true → exec .baudRevert s = .next (after s { fresh s with
      tow := { t with baud := 115200, baudPending := false } })) ∧
    (t.baudPending = false → exec .baudRevert s = .next (after s (fresh s)))
end

