-- ==== Sys2Proof/Laws/State.lean ====
section
/-! SUPPORT. State: what each small update of the device writes, field by field; every lemma is true by unfolding. -/
namespace Sys2Proof.Machine

@[simp] theorem setTb_tb (t : Timebase) (d : Dev) : (setTb t d).tb = t := rfl
@[simp] theorem setTb_link (t : Timebase) (d : Dev) : (setTb t d).link = d.link := rfl
@[simp] theorem setTb_pe (t : Timebase) (d : Dev) : (setTb t d).pe = d.pe := rfl
@[simp] theorem setTb_loops (t : Timebase) (d : Dev) : (setTb t d).loops = d.loops := rfl
@[simp] theorem setTb_zones (t : Timebase) (d : Dev) : (setTb t d).zones = d.zones := rfl
@[simp] theorem setTb_clk (t : Timebase) (d : Dev) : (setTb t d).clk = d.clk := rfl
@[simp] theorem setTb_sched (t : Timebase) (d : Dev) : (setTb t d).sched = d.sched := rfl
@[simp] theorem setTb_inp (t : Timebase) (d : Dev) : (setTb t d).inp = d.inp := rfl
@[simp] theorem setTb_coil (t : Timebase) (d : Dev) : (setTb t d).coil = d.coil := rfl
@[simp] theorem setTb_out (t : Timebase) (d : Dev) : (setTb t d).out = d.out := rfl
@[simp] theorem setTb_ports (t : Timebase) (d : Dev) : (setTb t d).ports = d.ports := rfl
@[simp] theorem setTb_kw (t : Timebase) (d : Dev) : (setTb t d).kw = d.kw := rfl
@[simp] theorem setTb_belay (t : Timebase) (d : Dev) : (setTb t d).belay = d.belay := rfl
@[simp] theorem setTb_pair (t : Timebase) (d : Dev) : (setTb t d).pair = d.pair := rfl
@[simp] theorem setTb_integ (t : Timebase) (d : Dev) : (setTb t d).integ = d.integ := rfl
@[simp] theorem setTb_hif (t : Timebase) (d : Dev) : (setTb t d).hif = d.hif := rfl
@[simp] theorem setTb_lop (t : Timebase) (d : Dev) : (setTb t d).lop = d.lop := rfl
@[simp] theorem setTb_sec (t : Timebase) (d : Dev) : (setTb t d).sec = d.sec := rfl
@[simp] theorem setTb_lk (t : Timebase) (d : Dev) : (setTb t d).lk = d.lk := rfl
@[simp] theorem setTb_th (t : Timebase) (d : Dev) : (setTb t d).th = d.th := rfl
@[simp] theorem setTb_nvm (t : Timebase) (d : Dev) : (setTb t d).nvm = d.nvm := rfl
@[simp] theorem setTb_power (t : Timebase) (d : Dev) : (setTb t d).power = d.power := rfl
@[simp] theorem setTb_tow (t : Timebase) (d : Dev) : (setTb t d).tow = d.tow := rfl
@[simp] theorem setTb_drawn (t : Timebase) (d : Dev) : (setTb t d).drawn = d.drawn := rfl
@[simp] theorem setTb_outbox (t : Timebase) (d : Dev) : (setTb t d).outbox = d.outbox := rfl

@[simp] theorem setHif_tb (h : HostIf) (d : Dev) : (setHif h d).tb = d.tb := rfl
@[simp] theorem setHif_link (h : HostIf) (d : Dev) : (setHif h d).link = d.link := rfl
@[simp] theorem setHif_pe (h : HostIf) (d : Dev) : (setHif h d).pe = d.pe := rfl
@[simp] theorem setHif_loops (h : HostIf) (d : Dev) : (setHif h d).loops = d.loops := rfl
@[simp] theorem setHif_zones (h : HostIf) (d : Dev) : (setHif h d).zones = d.zones := rfl
@[simp] theorem setHif_clk (h : HostIf) (d : Dev) : (setHif h d).clk = d.clk := rfl
@[simp] theorem setHif_sched (h : HostIf) (d : Dev) : (setHif h d).sched = d.sched := rfl
@[simp] theorem setHif_inp (h : HostIf) (d : Dev) : (setHif h d).inp = d.inp := rfl
@[simp] theorem setHif_coil (h : HostIf) (d : Dev) : (setHif h d).coil = d.coil := rfl
@[simp] theorem setHif_out (h : HostIf) (d : Dev) : (setHif h d).out = d.out := rfl
@[simp] theorem setHif_ports (h : HostIf) (d : Dev) : (setHif h d).ports = d.ports := rfl
@[simp] theorem setHif_kw (h : HostIf) (d : Dev) : (setHif h d).kw = d.kw := rfl
@[simp] theorem setHif_belay (h : HostIf) (d : Dev) : (setHif h d).belay = d.belay := rfl
@[simp] theorem setHif_pair (h : HostIf) (d : Dev) : (setHif h d).pair = d.pair := rfl
@[simp] theorem setHif_integ (h : HostIf) (d : Dev) : (setHif h d).integ = d.integ := rfl
@[simp] theorem setHif_hif (h : HostIf) (d : Dev) : (setHif h d).hif = h := rfl
@[simp] theorem setHif_lop (h : HostIf) (d : Dev) : (setHif h d).lop = d.lop := rfl
@[simp] theorem setHif_sec (h : HostIf) (d : Dev) : (setHif h d).sec = d.sec := rfl
@[simp] theorem setHif_lk (h : HostIf) (d : Dev) : (setHif h d).lk = d.lk := rfl
@[simp] theorem setHif_th (h : HostIf) (d : Dev) : (setHif h d).th = d.th := rfl
@[simp] theorem setHif_nvm (h : HostIf) (d : Dev) : (setHif h d).nvm = d.nvm := rfl
@[simp] theorem setHif_power (h : HostIf) (d : Dev) : (setHif h d).power = d.power := rfl
@[simp] theorem setHif_tow (h : HostIf) (d : Dev) : (setHif h d).tow = d.tow := rfl
@[simp] theorem setHif_drawn (h : HostIf) (d : Dev) : (setHif h d).drawn = d.drawn := rfl
@[simp] theorem setHif_outbox (h : HostIf) (d : Dev) : (setHif h d).outbox = d.outbox := rfl

@[simp] theorem setClk_tb (c : Clock) (d : Dev) : (setClk c d).tb = d.tb := rfl
@[simp] theorem setClk_link (c : Clock) (d : Dev) : (setClk c d).link = d.link := rfl
@[simp] theorem setClk_pe (c : Clock) (d : Dev) : (setClk c d).pe = d.pe := rfl
@[simp] theorem setClk_loops (c : Clock) (d : Dev) : (setClk c d).loops = d.loops := rfl
@[simp] theorem setClk_zones (c : Clock) (d : Dev) : (setClk c d).zones = d.zones := rfl
@[simp] theorem setClk_clk (c : Clock) (d : Dev) : (setClk c d).clk = c := rfl
@[simp] theorem setClk_sched (c : Clock) (d : Dev) : (setClk c d).sched = d.sched := rfl
@[simp] theorem setClk_inp (c : Clock) (d : Dev) : (setClk c d).inp = d.inp := rfl
@[simp] theorem setClk_coil (c : Clock) (d : Dev) : (setClk c d).coil = d.coil := rfl
@[simp] theorem setClk_out (c : Clock) (d : Dev) : (setClk c d).out = d.out := rfl
@[simp] theorem setClk_ports (c : Clock) (d : Dev) : (setClk c d).ports = d.ports := rfl
@[simp] theorem setClk_kw (c : Clock) (d : Dev) : (setClk c d).kw = d.kw := rfl
@[simp] theorem setClk_belay (c : Clock) (d : Dev) : (setClk c d).belay = d.belay := rfl
@[simp] theorem setClk_pair (c : Clock) (d : Dev) : (setClk c d).pair = d.pair := rfl
@[simp] theorem setClk_integ (c : Clock) (d : Dev) : (setClk c d).integ = d.integ := rfl
@[simp] theorem setClk_hif (c : Clock) (d : Dev) : (setClk c d).hif = d.hif := rfl
@[simp] theorem setClk_lop (c : Clock) (d : Dev) : (setClk c d).lop = d.lop := rfl
@[simp] theorem setClk_sec (c : Clock) (d : Dev) : (setClk c d).sec = d.sec := rfl
@[simp] theorem setClk_lk (c : Clock) (d : Dev) : (setClk c d).lk = d.lk := rfl
@[simp] theorem setClk_th (c : Clock) (d : Dev) : (setClk c d).th = d.th := rfl
@[simp] theorem setClk_nvm (c : Clock) (d : Dev) : (setClk c d).nvm = d.nvm := rfl
@[simp] theorem setClk_power (c : Clock) (d : Dev) : (setClk c d).power = d.power := rfl
@[simp] theorem setClk_tow (c : Clock) (d : Dev) : (setClk c d).tow = d.tow := rfl
@[simp] theorem setClk_drawn (c : Clock) (d : Dev) : (setClk c d).drawn = d.drawn := rfl
@[simp] theorem setClk_outbox (c : Clock) (d : Dev) : (setClk c d).outbox = d.outbox := rfl

@[simp] theorem setSec_tb (x : Security) (d : Dev) : (setSec x d).tb = d.tb := rfl
@[simp] theorem setSec_link (x : Security) (d : Dev) : (setSec x d).link = d.link := rfl
@[simp] theorem setSec_pe (x : Security) (d : Dev) : (setSec x d).pe = d.pe := rfl
@[simp] theorem setSec_loops (x : Security) (d : Dev) : (setSec x d).loops = d.loops := rfl
@[simp] theorem setSec_zones (x : Security) (d : Dev) : (setSec x d).zones = d.zones := rfl
@[simp] theorem setSec_clk (x : Security) (d : Dev) : (setSec x d).clk = d.clk := rfl
@[simp] theorem setSec_sched (x : Security) (d : Dev) : (setSec x d).sched = d.sched := rfl
@[simp] theorem setSec_inp (x : Security) (d : Dev) : (setSec x d).inp = d.inp := rfl
@[simp] theorem setSec_coil (x : Security) (d : Dev) : (setSec x d).coil = d.coil := rfl
@[simp] theorem setSec_out (x : Security) (d : Dev) : (setSec x d).out = d.out := rfl
@[simp] theorem setSec_ports (x : Security) (d : Dev) : (setSec x d).ports = d.ports := rfl
@[simp] theorem setSec_kw (x : Security) (d : Dev) : (setSec x d).kw = d.kw := rfl
@[simp] theorem setSec_belay (x : Security) (d : Dev) : (setSec x d).belay = d.belay := rfl
@[simp] theorem setSec_pair (x : Security) (d : Dev) : (setSec x d).pair = d.pair := rfl
@[simp] theorem setSec_integ (x : Security) (d : Dev) : (setSec x d).integ = d.integ := rfl
@[simp] theorem setSec_hif (x : Security) (d : Dev) : (setSec x d).hif = d.hif := rfl
@[simp] theorem setSec_lop (x : Security) (d : Dev) : (setSec x d).lop = d.lop := rfl
@[simp] theorem setSec_sec (x : Security) (d : Dev) : (setSec x d).sec = x := rfl
@[simp] theorem setSec_lk (x : Security) (d : Dev) : (setSec x d).lk = d.lk := rfl
@[simp] theorem setSec_th (x : Security) (d : Dev) : (setSec x d).th = d.th := rfl
@[simp] theorem setSec_nvm (x : Security) (d : Dev) : (setSec x d).nvm = d.nvm := rfl
@[simp] theorem setSec_power (x : Security) (d : Dev) : (setSec x d).power = d.power := rfl
@[simp] theorem setSec_tow (x : Security) (d : Dev) : (setSec x d).tow = d.tow := rfl
@[simp] theorem setSec_drawn (x : Security) (d : Dev) : (setSec x d).drawn = d.drawn := rfl
@[simp] theorem setSec_outbox (x : Security) (d : Dev) : (setSec x d).outbox = d.outbox := rfl

@[simp] theorem setTow_tb (t : Towpath) (d : Dev) : (setTow t d).tb = d.tb := rfl
@[simp] theorem setTow_link (t : Towpath) (d : Dev) : (setTow t d).link = d.link := rfl
@[simp] theorem setTow_pe (t : Towpath) (d : Dev) : (setTow t d).pe = d.pe := rfl
@[simp] theorem setTow_loops (t : Towpath) (d : Dev) : (setTow t d).loops = d.loops := rfl
@[simp] theorem setTow_zones (t : Towpath) (d : Dev) : (setTow t d).zones = d.zones := rfl
@[simp] theorem setTow_clk (t : Towpath) (d : Dev) : (setTow t d).clk = d.clk := rfl
@[simp] theorem setTow_sched (t : Towpath) (d : Dev) : (setTow t d).sched = d.sched := rfl
@[simp] theorem setTow_inp (t : Towpath) (d : Dev) : (setTow t d).inp = d.inp := rfl
@[simp] theorem setTow_coil (t : Towpath) (d : Dev) : (setTow t d).coil = d.coil := rfl
@[simp] theorem setTow_out (t : Towpath) (d : Dev) : (setTow t d).out = d.out := rfl
@[simp] theorem setTow_ports (t : Towpath) (d : Dev) : (setTow t d).ports = d.ports := rfl
@[simp] theorem setTow_kw (t : Towpath) (d : Dev) : (setTow t d).kw = d.kw := rfl
@[simp] theorem setTow_belay (t : Towpath) (d : Dev) : (setTow t d).belay = d.belay := rfl
@[simp] theorem setTow_pair (t : Towpath) (d : Dev) : (setTow t d).pair = d.pair := rfl
@[simp] theorem setTow_integ (t : Towpath) (d : Dev) : (setTow t d).integ = d.integ := rfl
@[simp] theorem setTow_hif (t : Towpath) (d : Dev) : (setTow t d).hif = d.hif := rfl
@[simp] theorem setTow_lop (t : Towpath) (d : Dev) : (setTow t d).lop = d.lop := rfl
@[simp] theorem setTow_sec (t : Towpath) (d : Dev) : (setTow t d).sec = d.sec := rfl
@[simp] theorem setTow_lk (t : Towpath) (d : Dev) : (setTow t d).lk = d.lk := rfl
@[simp] theorem setTow_th (t : Towpath) (d : Dev) : (setTow t d).th = d.th := rfl
@[simp] theorem setTow_nvm (t : Towpath) (d : Dev) : (setTow t d).nvm = d.nvm := rfl
@[simp] theorem setTow_power (t : Towpath) (d : Dev) : (setTow t d).power = d.power := rfl
@[simp] theorem setTow_tow (t : Towpath) (d : Dev) : (setTow t d).tow = t := rfl
@[simp] theorem setTow_drawn (t : Towpath) (d : Dev) : (setTow t d).drawn = d.drawn := rfl
@[simp] theorem setTow_outbox (t : Towpath) (d : Dev) : (setTow t d).outbox = d.outbox := rfl

@[simp] theorem setLk_tb (l : LockKeeper) (d : Dev) : (setLk l d).tb = d.tb := rfl
@[simp] theorem setLk_link (l : LockKeeper) (d : Dev) : (setLk l d).link = d.link := rfl
@[simp] theorem setLk_pe (l : LockKeeper) (d : Dev) : (setLk l d).pe = d.pe := rfl
@[simp] theorem setLk_loops (l : LockKeeper) (d : Dev) : (setLk l d).loops = d.loops := rfl
@[simp] theorem setLk_zones (l : LockKeeper) (d : Dev) : (setLk l d).zones = d.zones := rfl
@[simp] theorem setLk_clk (l : LockKeeper) (d : Dev) : (setLk l d).clk = d.clk := rfl
@[simp] theorem setLk_sched (l : LockKeeper) (d : Dev) : (setLk l d).sched = d.sched := rfl
@[simp] theorem setLk_inp (l : LockKeeper) (d : Dev) : (setLk l d).inp = d.inp := rfl
@[simp] theorem setLk_coil (l : LockKeeper) (d : Dev) : (setLk l d).coil = d.coil := rfl
@[simp] theorem setLk_out (l : LockKeeper) (d : Dev) : (setLk l d).out = d.out := rfl
@[simp] theorem setLk_ports (l : LockKeeper) (d : Dev) : (setLk l d).ports = d.ports := rfl
@[simp] theorem setLk_kw (l : LockKeeper) (d : Dev) : (setLk l d).kw = d.kw := rfl
@[simp] theorem setLk_belay (l : LockKeeper) (d : Dev) : (setLk l d).belay = d.belay := rfl
@[simp] theorem setLk_pair (l : LockKeeper) (d : Dev) : (setLk l d).pair = d.pair := rfl
@[simp] theorem setLk_integ (l : LockKeeper) (d : Dev) : (setLk l d).integ = d.integ := rfl
@[simp] theorem setLk_hif (l : LockKeeper) (d : Dev) : (setLk l d).hif = d.hif := rfl
@[simp] theorem setLk_lop (l : LockKeeper) (d : Dev) : (setLk l d).lop = d.lop := rfl
@[simp] theorem setLk_sec (l : LockKeeper) (d : Dev) : (setLk l d).sec = d.sec := rfl
@[simp] theorem setLk_lk (l : LockKeeper) (d : Dev) : (setLk l d).lk = l := rfl
@[simp] theorem setLk_th (l : LockKeeper) (d : Dev) : (setLk l d).th = d.th := rfl
@[simp] theorem setLk_nvm (l : LockKeeper) (d : Dev) : (setLk l d).nvm = d.nvm := rfl
@[simp] theorem setLk_power (l : LockKeeper) (d : Dev) : (setLk l d).power = d.power := rfl
@[simp] theorem setLk_tow (l : LockKeeper) (d : Dev) : (setLk l d).tow = d.tow := rfl
@[simp] theorem setLk_drawn (l : LockKeeper) (d : Dev) : (setLk l d).drawn = d.drawn := rfl
@[simp] theorem setLk_outbox (l : LockKeeper) (d : Dev) : (setLk l d).outbox = d.outbox := rfl

@[simp] theorem setTh_tb (t : Thermal) (d : Dev) : (setTh t d).tb = d.tb := rfl
@[simp] theorem setTh_link (t : Thermal) (d : Dev) : (setTh t d).link = d.link := rfl
@[simp] theorem setTh_pe (t : Thermal) (d : Dev) : (setTh t d).pe = d.pe := rfl
@[simp] theorem setTh_loops (t : Thermal) (d : Dev) : (setTh t d).loops = d.loops := rfl
@[simp] theorem setTh_zones (t : Thermal) (d : Dev) : (setTh t d).zones = d.zones := rfl
@[simp] theorem setTh_clk (t : Thermal) (d : Dev) : (setTh t d).clk = d.clk := rfl
@[simp] theorem setTh_sched (t : Thermal) (d : Dev) : (setTh t d).sched = d.sched := rfl
@[simp] theorem setTh_inp (t : Thermal) (d : Dev) : (setTh t d).inp = d.inp := rfl
@[simp] theorem setTh_coil (t : Thermal) (d : Dev) : (setTh t d).coil = d.coil := rfl
@[simp] theorem setTh_out (t : Thermal) (d : Dev) : (setTh t d).out = d.out := rfl
@[simp] theorem setTh_ports (t : Thermal) (d : Dev) : (setTh t d).ports = d.ports := rfl
@[simp] theorem setTh_kw (t : Thermal) (d : Dev) : (setTh t d).kw = d.kw := rfl
@[simp] theorem setTh_belay (t : Thermal) (d : Dev) : (setTh t d).belay = d.belay := rfl
@[simp] theorem setTh_pair (t : Thermal) (d : Dev) : (setTh t d).pair = d.pair := rfl
@[simp] theorem setTh_integ (t : Thermal) (d : Dev) : (setTh t d).integ = d.integ := rfl
@[simp] theorem setTh_hif (t : Thermal) (d : Dev) : (setTh t d).hif = d.hif := rfl
@[simp] theorem setTh_lop (t : Thermal) (d : Dev) : (setTh t d).lop = d.lop := rfl
@[simp] theorem setTh_sec (t : Thermal) (d : Dev) : (setTh t d).sec = d.sec := rfl
@[simp] theorem setTh_lk (t : Thermal) (d : Dev) : (setTh t d).lk = d.lk := rfl
@[simp] theorem setTh_th (t : Thermal) (d : Dev) : (setTh t d).th = t := rfl
@[simp] theorem setTh_nvm (t : Thermal) (d : Dev) : (setTh t d).nvm = d.nvm := rfl
@[simp] theorem setTh_power (t : Thermal) (d : Dev) : (setTh t d).power = d.power := rfl
@[simp] theorem setTh_tow (t : Thermal) (d : Dev) : (setTh t d).tow = d.tow := rfl
@[simp] theorem setTh_drawn (t : Thermal) (d : Dev) : (setTh t d).drawn = d.drawn := rfl
@[simp] theorem setTh_outbox (t : Thermal) (d : Dev) : (setTh t d).outbox = d.outbox := rfl

@[simp] theorem setNvm_tb (n : Nvm) (d : Dev) : (setNvm n d).tb = d.tb := rfl
@[simp] theorem setNvm_link (n : Nvm) (d : Dev) : (setNvm n d).link = d.link := rfl
@[simp] theorem setNvm_pe (n : Nvm) (d : Dev) : (setNvm n d).pe = d.pe := rfl
@[simp] theorem setNvm_loops (n : Nvm) (d : Dev) : (setNvm n d).loops = d.loops := rfl
@[simp] theorem setNvm_zones (n : Nvm) (d : Dev) : (setNvm n d).zones = d.zones := rfl
@[simp] theorem setNvm_clk (n : Nvm) (d : Dev) : (setNvm n d).clk = d.clk := rfl
@[simp] theorem setNvm_sched (n : Nvm) (d : Dev) : (setNvm n d).sched = d.sched := rfl
@[simp] theorem setNvm_inp (n : Nvm) (d : Dev) : (setNvm n d).inp = d.inp := rfl
@[simp] theorem setNvm_coil (n : Nvm) (d : Dev) : (setNvm n d).coil = d.coil := rfl
@[simp] theorem setNvm_out (n : Nvm) (d : Dev) : (setNvm n d).out = d.out := rfl
@[simp] theorem setNvm_ports (n : Nvm) (d : Dev) : (setNvm n d).ports = d.ports := rfl
@[simp] theorem setNvm_kw (n : Nvm) (d : Dev) : (setNvm n d).kw = d.kw := rfl
@[simp] theorem setNvm_belay (n : Nvm) (d : Dev) : (setNvm n d).belay = d.belay := rfl
@[simp] theorem setNvm_pair (n : Nvm) (d : Dev) : (setNvm n d).pair = d.pair := rfl
@[simp] theorem setNvm_integ (n : Nvm) (d : Dev) : (setNvm n d).integ = d.integ := rfl
@[simp] theorem setNvm_hif (n : Nvm) (d : Dev) : (setNvm n d).hif = d.hif := rfl
@[simp] theorem setNvm_lop (n : Nvm) (d : Dev) : (setNvm n d).lop = d.lop := rfl
@[simp] theorem setNvm_sec (n : Nvm) (d : Dev) : (setNvm n d).sec = d.sec := rfl
@[simp] theorem setNvm_lk (n : Nvm) (d : Dev) : (setNvm n d).lk = d.lk := rfl
@[simp] theorem setNvm_th (n : Nvm) (d : Dev) : (setNvm n d).th = d.th := rfl
@[simp] theorem setNvm_nvm (n : Nvm) (d : Dev) : (setNvm n d).nvm = n := rfl
@[simp] theorem setNvm_power (n : Nvm) (d : Dev) : (setNvm n d).power = d.power := rfl
@[simp] theorem setNvm_tow (n : Nvm) (d : Dev) : (setNvm n d).tow = d.tow := rfl
@[simp] theorem setNvm_drawn (n : Nvm) (d : Dev) : (setNvm n d).drawn = d.drawn := rfl
@[simp] theorem setNvm_outbox (n : Nvm) (d : Dev) : (setNvm n d).outbox = d.outbox := rfl

@[simp] theorem setPower_tb (p : Power) (d : Dev) : (setPower p d).tb = d.tb := rfl
@[simp] theorem setPower_link (p : Power) (d : Dev) : (setPower p d).link = d.link := rfl
@[simp] theorem setPower_pe (p : Power) (d : Dev) : (setPower p d).pe = d.pe := rfl
@[simp] theorem setPower_loops (p : Power) (d : Dev) : (setPower p d).loops = d.loops := rfl
@[simp] theorem setPower_zones (p : Power) (d : Dev) : (setPower p d).zones = d.zones := rfl
@[simp] theorem setPower_clk (p : Power) (d : Dev) : (setPower p d).clk = d.clk := rfl
@[simp] theorem setPower_sched (p : Power) (d : Dev) : (setPower p d).sched = d.sched := rfl
@[simp] theorem setPower_inp (p : Power) (d : Dev) : (setPower p d).inp = d.inp := rfl
@[simp] theorem setPower_coil (p : Power) (d : Dev) : (setPower p d).coil = d.coil := rfl
@[simp] theorem setPower_out (p : Power) (d : Dev) : (setPower p d).out = d.out := rfl
@[simp] theorem setPower_ports (p : Power) (d : Dev) : (setPower p d).ports = d.ports := rfl
@[simp] theorem setPower_kw (p : Power) (d : Dev) : (setPower p d).kw = d.kw := rfl
@[simp] theorem setPower_belay (p : Power) (d : Dev) : (setPower p d).belay = d.belay := rfl
@[simp] theorem setPower_pair (p : Power) (d : Dev) : (setPower p d).pair = d.pair := rfl
@[simp] theorem setPower_integ (p : Power) (d : Dev) : (setPower p d).integ = d.integ := rfl
@[simp] theorem setPower_hif (p : Power) (d : Dev) : (setPower p d).hif = d.hif := rfl
@[simp] theorem setPower_lop (p : Power) (d : Dev) : (setPower p d).lop = d.lop := rfl
@[simp] theorem setPower_sec (p : Power) (d : Dev) : (setPower p d).sec = d.sec := rfl
@[simp] theorem setPower_lk (p : Power) (d : Dev) : (setPower p d).lk = d.lk := rfl
@[simp] theorem setPower_th (p : Power) (d : Dev) : (setPower p d).th = d.th := rfl
@[simp] theorem setPower_nvm (p : Power) (d : Dev) : (setPower p d).nvm = d.nvm := rfl
@[simp] theorem setPower_power (p : Power) (d : Dev) : (setPower p d).power = p := rfl
@[simp] theorem setPower_tow (p : Power) (d : Dev) : (setPower p d).tow = d.tow := rfl
@[simp] theorem setPower_drawn (p : Power) (d : Dev) : (setPower p d).drawn = d.drawn := rfl
@[simp] theorem setPower_outbox (p : Power) (d : Dev) : (setPower p d).outbox = d.outbox := rfl

@[simp] theorem setAdc_tb (n : Nat) (x : Adc) (d : Dev) : (setAdc n x d).tb = d.tb := rfl
@[simp] theorem setAdc_link (n : Nat) (x : Adc) (d : Dev) : (setAdc n x d).link = d.link := rfl
@[simp] theorem setAdc_pe (n : Nat) (x : Adc) (d : Dev) : (setAdc n x d).pe = d.pe := rfl
@[simp] theorem setAdc_loops (n : Nat) (x : Adc) (d : Dev) : (setAdc n x d).loops = d.loops := rfl
@[simp] theorem setAdc_zones (n : Nat) (x : Adc) (d : Dev) : (setAdc n x d).zones = d.zones := rfl
@[simp] theorem setAdc_clk (n : Nat) (x : Adc) (d : Dev) : (setAdc n x d).clk = d.clk := rfl
@[simp] theorem setAdc_sched (n : Nat) (x : Adc) (d : Dev) : (setAdc n x d).sched = d.sched := rfl
@[simp] theorem setAdc_inp (n : Nat) (x : Adc) (d : Dev) : (setAdc n x d).inp = { d.inp with adcs := Tab.set {} d.inp.adcs n x } := rfl
@[simp] theorem setAdc_coil (n : Nat) (x : Adc) (d : Dev) : (setAdc n x d).coil = d.coil := rfl
@[simp] theorem setAdc_out (n : Nat) (x : Adc) (d : Dev) : (setAdc n x d).out = d.out := rfl
@[simp] theorem setAdc_ports (n : Nat) (x : Adc) (d : Dev) : (setAdc n x d).ports = d.ports := rfl
@[simp] theorem setAdc_kw (n : Nat) (x : Adc) (d : Dev) : (setAdc n x d).kw = d.kw := rfl
@[simp] theorem setAdc_belay (n : Nat) (x : Adc) (d : Dev) : (setAdc n x d).belay = d.belay := rfl
@[simp] theorem setAdc_pair (n : Nat) (x : Adc) (d : Dev) : (setAdc n x d).pair = d.pair := rfl
@[simp] theorem setAdc_integ (n : Nat) (x : Adc) (d : Dev) : (setAdc n x d).integ = d.integ := rfl
@[simp] theorem setAdc_hif (n : Nat) (x : Adc) (d : Dev) : (setAdc n x d).hif = d.hif := rfl
@[simp] theorem setAdc_lop (n : Nat) (x : Adc) (d : Dev) : (setAdc n x d).lop = d.lop := rfl
@[simp] theorem setAdc_sec (n : Nat) (x : Adc) (d : Dev) : (setAdc n x d).sec = d.sec := rfl
@[simp] theorem setAdc_lk (n : Nat) (x : Adc) (d : Dev) : (setAdc n x d).lk = d.lk := rfl
@[simp] theorem setAdc_th (n : Nat) (x : Adc) (d : Dev) : (setAdc n x d).th = d.th := rfl
@[simp] theorem setAdc_nvm (n : Nat) (x : Adc) (d : Dev) : (setAdc n x d).nvm = d.nvm := rfl
@[simp] theorem setAdc_power (n : Nat) (x : Adc) (d : Dev) : (setAdc n x d).power = d.power := rfl
@[simp] theorem setAdc_tow (n : Nat) (x : Adc) (d : Dev) : (setAdc n x d).tow = d.tow := rfl
@[simp] theorem setAdc_drawn (n : Nat) (x : Adc) (d : Dev) : (setAdc n x d).drawn = d.drawn := rfl
@[simp] theorem setAdc_outbox (n : Nat) (x : Adc) (d : Dev) : (setAdc n x d).outbox = d.outbox := rfl

@[simp] theorem setUi_tb (n : Nat) (x : Ui) (d : Dev) : (setUi n x d).tb = d.tb := rfl
@[simp] theorem setUi_link (n : Nat) (x : Ui) (d : Dev) : (setUi n x d).link = d.link := rfl
@[simp] theorem setUi_pe (n : Nat) (x : Ui) (d : Dev) : (setUi n x d).pe = d.pe := rfl
@[simp] theorem setUi_loops (n : Nat) (x : Ui) (d : Dev) : (setUi n x d).loops = d.loops := rfl
@[simp] theorem setUi_zones (n : Nat) (x : Ui) (d : Dev) : (setUi n x d).zones = d.zones := rfl
@[simp] theorem setUi_clk (n : Nat) (x : Ui) (d : Dev) : (setUi n x d).clk = d.clk := rfl
@[simp] theorem setUi_sched (n : Nat) (x : Ui) (d : Dev) : (setUi n x d).sched = d.sched := rfl
@[simp] theorem setUi_inp (n : Nat) (x : Ui) (d : Dev) : (setUi n x d).inp = { d.inp with uis := Tab.set {} d.inp.uis n x } := rfl
@[simp] theorem setUi_coil (n : Nat) (x : Ui) (d : Dev) : (setUi n x d).coil = d.coil := rfl
@[simp] theorem setUi_out (n : Nat) (x : Ui) (d : Dev) : (setUi n x d).out = d.out := rfl
@[simp] theorem setUi_ports (n : Nat) (x : Ui) (d : Dev) : (setUi n x d).ports = d.ports := rfl
@[simp] theorem setUi_kw (n : Nat) (x : Ui) (d : Dev) : (setUi n x d).kw = d.kw := rfl
@[simp] theorem setUi_belay (n : Nat) (x : Ui) (d : Dev) : (setUi n x d).belay = d.belay := rfl
@[simp] theorem setUi_pair (n : Nat) (x : Ui) (d : Dev) : (setUi n x d).pair = d.pair := rfl
@[simp] theorem setUi_integ (n : Nat) (x : Ui) (d : Dev) : (setUi n x d).integ = d.integ := rfl
@[simp] theorem setUi_hif (n : Nat) (x : Ui) (d : Dev) : (setUi n x d).hif = d.hif := rfl
@[simp] theorem setUi_lop (n : Nat) (x : Ui) (d : Dev) : (setUi n x d).lop = d.lop := rfl
@[simp] theorem setUi_sec (n : Nat) (x : Ui) (d : Dev) : (setUi n x d).sec = d.sec := rfl
@[simp] theorem setUi_lk (n : Nat) (x : Ui) (d : Dev) : (setUi n x d).lk = d.lk := rfl
@[simp] theorem setUi_th (n : Nat) (x : Ui) (d : Dev) : (setUi n x d).th = d.th := rfl
@[simp] theorem setUi_nvm (n : Nat) (x : Ui) (d : Dev) : (setUi n x d).nvm = d.nvm := rfl
@[simp] theorem setUi_power (n : Nat) (x : Ui) (d : Dev) : (setUi n x d).power = d.power := rfl
@[simp] theorem setUi_tow (n : Nat) (x : Ui) (d : Dev) : (setUi n x d).tow = d.tow := rfl
@[simp] theorem setUi_drawn (n : Nat) (x : Ui) (d : Dev) : (setUi n x d).drawn = d.drawn := rfl
@[simp] theorem setUi_outbox (n : Nat) (x : Ui) (d : Dev) : (setUi n x d).outbox = d.outbox := rfl

@[simp] theorem setChan_tb (n : Nat) (x : Chan) (d : Dev) : (setChan n x d).tb = d.tb := rfl
@[simp] theorem setChan_link (n : Nat) (x : Chan) (d : Dev) : (setChan n x d).link = d.link := rfl
@[simp] theorem setChan_pe (n : Nat) (x : Chan) (d : Dev) : (setChan n x d).pe = d.pe := rfl
@[simp] theorem setChan_loops (n : Nat) (x : Chan) (d : Dev) : (setChan n x d).loops = d.loops := rfl
@[simp] theorem setChan_zones (n : Nat) (x : Chan) (d : Dev) : (setChan n x d).zones = d.zones := rfl
@[simp] theorem setChan_clk (n : Nat) (x : Chan) (d : Dev) : (setChan n x d).clk = d.clk := rfl
@[simp] theorem setChan_sched (n : Nat) (x : Chan) (d : Dev) : (setChan n x d).sched = d.sched := rfl
@[simp] theorem setChan_inp (n : Nat) (x : Chan) (d : Dev) : (setChan n x d).inp = d.inp := rfl
@[simp] theorem setChan_coil (n : Nat) (x : Chan) (d : Dev) : (setChan n x d).coil = { d.coil with chans := Tab.set {} d.coil.chans n x } := rfl
@[simp] theorem setChan_out (n : Nat) (x : Chan) (d : Dev) : (setChan n x d).out = d.out := rfl
@[simp] theorem setChan_ports (n : Nat) (x : Chan) (d : Dev) : (setChan n x d).ports = d.ports := rfl
@[simp] theorem setChan_kw (n : Nat) (x : Chan) (d : Dev) : (setChan n x d).kw = d.kw := rfl
@[simp] theorem setChan_belay (n : Nat) (x : Chan) (d : Dev) : (setChan n x d).belay = d.belay := rfl
@[simp] theorem setChan_pair (n : Nat) (x : Chan) (d : Dev) : (setChan n x d).pair = d.pair := rfl
@[simp] theorem setChan_integ (n : Nat) (x : Chan) (d : Dev) : (setChan n x d).integ = d.integ := rfl
@[simp] theorem setChan_hif (n : Nat) (x : Chan) (d : Dev) : (setChan n x d).hif = d.hif := rfl
@[simp] theorem setChan_lop (n : Nat) (x : Chan) (d : Dev) : (setChan n x d).lop = d.lop := rfl
@[simp] theorem setChan_sec (n : Nat) (x : Chan) (d : Dev) : (setChan n x d).sec = d.sec := rfl
@[simp] theorem setChan_lk (n : Nat) (x : Chan) (d : Dev) : (setChan n x d).lk = d.lk := rfl
@[simp] theorem setChan_th (n : Nat) (x : Chan) (d : Dev) : (setChan n x d).th = d.th := rfl
@[simp] theorem setChan_nvm (n : Nat) (x : Chan) (d : Dev) : (setChan n x d).nvm = d.nvm := rfl
@[simp] theorem setChan_power (n : Nat) (x : Chan) (d : Dev) : (setChan n x d).power = d.power := rfl
@[simp] theorem setChan_tow (n : Nat) (x : Chan) (d : Dev) : (setChan n x d).tow = d.tow := rfl
@[simp] theorem setChan_drawn (n : Nat) (x : Chan) (d : Dev) : (setChan n x d).drawn = d.drawn := rfl
@[simp] theorem setChan_outbox (n : Nat) (x : Chan) (d : Dev) : (setChan n x d).outbox = d.outbox := rfl

@[simp] theorem setBank_tb (n : Nat) (x : Bank) (d : Dev) : (setBank n x d).tb = d.tb := rfl
@[simp] theorem setBank_link (n : Nat) (x : Bank) (d : Dev) : (setBank n x d).link = d.link := rfl
@[simp] theorem setBank_pe (n : Nat) (x : Bank) (d : Dev) : (setBank n x d).pe = d.pe := rfl
@[simp] theorem setBank_loops (n : Nat) (x : Bank) (d : Dev) : (setBank n x d).loops = d.loops := rfl
@[simp] theorem setBank_zones (n : Nat) (x : Bank) (d : Dev) : (setBank n x d).zones = d.zones := rfl
@[simp] theorem setBank_clk (n : Nat) (x : Bank) (d : Dev) : (setBank n x d).clk = d.clk := rfl
@[simp] theorem setBank_sched (n : Nat) (x : Bank) (d : Dev) : (setBank n x d).sched = d.sched := rfl
@[simp] theorem setBank_inp (n : Nat) (x : Bank) (d : Dev) : (setBank n x d).inp = d.inp := rfl
@[simp] theorem setBank_coil (n : Nat) (x : Bank) (d : Dev) : (setBank n x d).coil = { d.coil with banks := Tab.set {} d.coil.banks n x } := rfl
@[simp] theorem setBank_out (n : Nat) (x : Bank) (d : Dev) : (setBank n x d).out = d.out := rfl
@[simp] theorem setBank_ports (n : Nat) (x : Bank) (d : Dev) : (setBank n x d).ports = d.ports := rfl
@[simp] theorem setBank_kw (n : Nat) (x : Bank) (d : Dev) : (setBank n x d).kw = d.kw := rfl
@[simp] theorem setBank_belay (n : Nat) (x : Bank) (d : Dev) : (setBank n x d).belay = d.belay := rfl
@[simp] theorem setBank_pair (n : Nat) (x : Bank) (d : Dev) : (setBank n x d).pair = d.pair := rfl
@[simp] theorem setBank_integ (n : Nat) (x : Bank) (d : Dev) : (setBank n x d).integ = d.integ := rfl
@[simp] theorem setBank_hif (n : Nat) (x : Bank) (d : Dev) : (setBank n x d).hif = d.hif := rfl
@[simp] theorem setBank_lop (n : Nat) (x : Bank) (d : Dev) : (setBank n x d).lop = d.lop := rfl
@[simp] theorem setBank_sec (n : Nat) (x : Bank) (d : Dev) : (setBank n x d).sec = d.sec := rfl
@[simp] theorem setBank_lk (n : Nat) (x : Bank) (d : Dev) : (setBank n x d).lk = d.lk := rfl
@[simp] theorem setBank_th (n : Nat) (x : Bank) (d : Dev) : (setBank n x d).th = d.th := rfl
@[simp] theorem setBank_nvm (n : Nat) (x : Bank) (d : Dev) : (setBank n x d).nvm = d.nvm := rfl
@[simp] theorem setBank_power (n : Nat) (x : Bank) (d : Dev) : (setBank n x d).power = d.power := rfl
@[simp] theorem setBank_tow (n : Nat) (x : Bank) (d : Dev) : (setBank n x d).tow = d.tow := rfl
@[simp] theorem setBank_drawn (n : Nat) (x : Bank) (d : Dev) : (setBank n x d).drawn = d.drawn := rfl
@[simp] theorem setBank_outbox (n : Nat) (x : Bank) (d : Dev) : (setBank n x d).outbox = d.outbox := rfl

@[simp] theorem setAo_tb (n : Nat) (x : Ao) (d : Dev) : (setAo n x d).tb = d.tb := rfl
@[simp] theorem setAo_link (n : Nat) (x : Ao) (d : Dev) : (setAo n x d).link = d.link := rfl
@[simp] theorem setAo_pe (n : Nat) (x : Ao) (d : Dev) : (setAo n x d).pe = d.pe := rfl
@[simp] theorem setAo_loops (n : Nat) (x : Ao) (d : Dev) : (setAo n x d).loops = d.loops := rfl
@[simp] theorem setAo_zones (n : Nat) (x : Ao) (d : Dev) : (setAo n x d).zones = d.zones := rfl
@[simp] theorem setAo_clk (n : Nat) (x : Ao) (d : Dev) : (setAo n x d).clk = d.clk := rfl
@[simp] theorem setAo_sched (n : Nat) (x : Ao) (d : Dev) : (setAo n x d).sched = d.sched := rfl
@[simp] theorem setAo_inp (n : Nat) (x : Ao) (d : Dev) : (setAo n x d).inp = d.inp := rfl
@[simp] theorem setAo_coil (n : Nat) (x : Ao) (d : Dev) : (setAo n x d).coil = d.coil := rfl
@[simp] theorem setAo_out (n : Nat) (x : Ao) (d : Dev) : (setAo n x d).out = { d.out with aos := Tab.set {} d.out.aos n x } := rfl
@[simp] theorem setAo_ports (n : Nat) (x : Ao) (d : Dev) : (setAo n x d).ports = d.ports := rfl
@[simp] theorem setAo_kw (n : Nat) (x : Ao) (d : Dev) : (setAo n x d).kw = d.kw := rfl
@[simp] theorem setAo_belay (n : Nat) (x : Ao) (d : Dev) : (setAo n x d).belay = d.belay := rfl
@[simp] theorem setAo_pair (n : Nat) (x : Ao) (d : Dev) : (setAo n x d).pair = d.pair := rfl
@[simp] theorem setAo_integ (n : Nat) (x : Ao) (d : Dev) : (setAo n x d).integ = d.integ := rfl
@[simp] theorem setAo_hif (n : Nat) (x : Ao) (d : Dev) : (setAo n x d).hif = d.hif := rfl
@[simp] theorem setAo_lop (n : Nat) (x : Ao) (d : Dev) : (setAo n x d).lop = d.lop := rfl
@[simp] theorem setAo_sec (n : Nat) (x : Ao) (d : Dev) : (setAo n x d).sec = d.sec := rfl
@[simp] theorem setAo_lk (n : Nat) (x : Ao) (d : Dev) : (setAo n x d).lk = d.lk := rfl
@[simp] theorem setAo_th (n : Nat) (x : Ao) (d : Dev) : (setAo n x d).th = d.th := rfl
@[simp] theorem setAo_nvm (n : Nat) (x : Ao) (d : Dev) : (setAo n x d).nvm = d.nvm := rfl
@[simp] theorem setAo_power (n : Nat) (x : Ao) (d : Dev) : (setAo n x d).power = d.power := rfl
@[simp] theorem setAo_tow (n : Nat) (x : Ao) (d : Dev) : (setAo n x d).tow = d.tow := rfl
@[simp] theorem setAo_drawn (n : Nat) (x : Ao) (d : Dev) : (setAo n x d).drawn = d.drawn := rfl
@[simp] theorem setAo_outbox (n : Nat) (x : Ao) (d : Dev) : (setAo n x d).outbox = d.outbox := rfl

@[simp] theorem setTg_tb (n : Nat) (x : Tg) (d : Dev) : (setTg n x d).tb = d.tb := rfl
@[simp] theorem setTg_link (n : Nat) (x : Tg) (d : Dev) : (setTg n x d).link = d.link := rfl
@[simp] theorem setTg_pe (n : Nat) (x : Tg) (d : Dev) : (setTg n x d).pe = d.pe := rfl
@[simp] theorem setTg_loops (n : Nat) (x : Tg) (d : Dev) : (setTg n x d).loops = d.loops := rfl
@[simp] theorem setTg_zones (n : Nat) (x : Tg) (d : Dev) : (setTg n x d).zones = d.zones := rfl
@[simp] theorem setTg_clk (n : Nat) (x : Tg) (d : Dev) : (setTg n x d).clk = d.clk := rfl
@[simp] theorem setTg_sched (n : Nat) (x : Tg) (d : Dev) : (setTg n x d).sched = d.sched := rfl
@[simp] theorem setTg_inp (n : Nat) (x : Tg) (d : Dev) : (setTg n x d).inp = d.inp := rfl
@[simp] theorem setTg_coil (n : Nat) (x : Tg) (d : Dev) : (setTg n x d).coil = d.coil := rfl
@[simp] theorem setTg_out (n : Nat) (x : Tg) (d : Dev) : (setTg n x d).out = { d.out with tgs := Tab.set {} d.out.tgs n x } := rfl
@[simp] theorem setTg_ports (n : Nat) (x : Tg) (d : Dev) : (setTg n x d).ports = d.ports := rfl
@[simp] theorem setTg_kw (n : Nat) (x : Tg) (d : Dev) : (setTg n x d).kw = d.kw := rfl
@[simp] theorem setTg_belay (n : Nat) (x : Tg) (d : Dev) : (setTg n x d).belay = d.belay := rfl
@[simp] theorem setTg_pair (n : Nat) (x : Tg) (d : Dev) : (setTg n x d).pair = d.pair := rfl
@[simp] theorem setTg_integ (n : Nat) (x : Tg) (d : Dev) : (setTg n x d).integ = d.integ := rfl
@[simp] theorem setTg_hif (n : Nat) (x : Tg) (d : Dev) : (setTg n x d).hif = d.hif := rfl
@[simp] theorem setTg_lop (n : Nat) (x : Tg) (d : Dev) : (setTg n x d).lop = d.lop := rfl
@[simp] theorem setTg_sec (n : Nat) (x : Tg) (d : Dev) : (setTg n x d).sec = d.sec := rfl
@[simp] theorem setTg_lk (n : Nat) (x : Tg) (d : Dev) : (setTg n x d).lk = d.lk := rfl
@[simp] theorem setTg_th (n : Nat) (x : Tg) (d : Dev) : (setTg n x d).th = d.th := rfl
@[simp] theorem setTg_nvm (n : Nat) (x : Tg) (d : Dev) : (setTg n x d).nvm = d.nvm := rfl
@[simp] theorem setTg_power (n : Nat) (x : Tg) (d : Dev) : (setTg n x d).power = d.power := rfl
@[simp] theorem setTg_tow (n : Nat) (x : Tg) (d : Dev) : (setTg n x d).tow = d.tow := rfl
@[simp] theorem setTg_drawn (n : Nat) (x : Tg) (d : Dev) : (setTg n x d).drawn = d.drawn := rfl
@[simp] theorem setTg_outbox (n : Nat) (x : Tg) (d : Dev) : (setTg n x d).outbox = d.outbox := rfl

@[simp] theorem setFan_tb (n : Nat) (x : Fan) (d : Dev) : (setFan n x d).tb = d.tb := rfl
@[simp] theorem setFan_link (n : Nat) (x : Fan) (d : Dev) : (setFan n x d).link = d.link := rfl
@[simp] theorem setFan_pe (n : Nat) (x : Fan) (d : Dev) : (setFan n x d).pe = d.pe := rfl
@[simp] theorem setFan_loops (n : Nat) (x : Fan) (d : Dev) : (setFan n x d).loops = d.loops := rfl
@[simp] theorem setFan_zones (n : Nat) (x : Fan) (d : Dev) : (setFan n x d).zones = d.zones := rfl
@[simp] theorem setFan_clk (n : Nat) (x : Fan) (d : Dev) : (setFan n x d).clk = d.clk := rfl
@[simp] theorem setFan_sched (n : Nat) (x : Fan) (d : Dev) : (setFan n x d).sched = d.sched := rfl
@[simp] theorem setFan_inp (n : Nat) (x : Fan) (d : Dev) : (setFan n x d).inp = d.inp := rfl
@[simp] theorem setFan_coil (n : Nat) (x : Fan) (d : Dev) : (setFan n x d).coil = d.coil := rfl
@[simp] theorem setFan_out (n : Nat) (x : Fan) (d : Dev) : (setFan n x d).out = { d.out with fans := Tab.set {} d.out.fans n x } := rfl
@[simp] theorem setFan_ports (n : Nat) (x : Fan) (d : Dev) : (setFan n x d).ports = d.ports := rfl
@[simp] theorem setFan_kw (n : Nat) (x : Fan) (d : Dev) : (setFan n x d).kw = d.kw := rfl
@[simp] theorem setFan_belay (n : Nat) (x : Fan) (d : Dev) : (setFan n x d).belay = d.belay := rfl
@[simp] theorem setFan_pair (n : Nat) (x : Fan) (d : Dev) : (setFan n x d).pair = d.pair := rfl
@[simp] theorem setFan_integ (n : Nat) (x : Fan) (d : Dev) : (setFan n x d).integ = d.integ := rfl
@[simp] theorem setFan_hif (n : Nat) (x : Fan) (d : Dev) : (setFan n x d).hif = d.hif := rfl
@[simp] theorem setFan_lop (n : Nat) (x : Fan) (d : Dev) : (setFan n x d).lop = d.lop := rfl
@[simp] theorem setFan_sec (n : Nat) (x : Fan) (d : Dev) : (setFan n x d).sec = d.sec := rfl
@[simp] theorem setFan_lk (n : Nat) (x : Fan) (d : Dev) : (setFan n x d).lk = d.lk := rfl
@[simp] theorem setFan_th (n : Nat) (x : Fan) (d : Dev) : (setFan n x d).th = d.th := rfl
@[simp] theorem setFan_nvm (n : Nat) (x : Fan) (d : Dev) : (setFan n x d).nvm = d.nvm := rfl
@[simp] theorem setFan_power (n : Nat) (x : Fan) (d : Dev) : (setFan n x d).power = d.power := rfl
@[simp] theorem setFan_tow (n : Nat) (x : Fan) (d : Dev) : (setFan n x d).tow = d.tow := rfl
@[simp] theorem setFan_drawn (n : Nat) (x : Fan) (d : Dev) : (setFan n x d).drawn = d.drawn := rfl
@[simp] theorem setFan_outbox (n : Nat) (x : Fan) (d : Dev) : (setFan n x d).outbox = d.outbox := rfl

@[simp] theorem setBus_tb (n : Nat) (x : Bus) (d : Dev) : (setBus n x d).tb = d.tb := rfl
@[simp] theorem setBus_link (n : Nat) (x : Bus) (d : Dev) : (setBus n x d).link = d.link := rfl
@[simp] theorem setBus_pe (n : Nat) (x : Bus) (d : Dev) : (setBus n x d).pe = d.pe := rfl
@[simp] theorem setBus_loops (n : Nat) (x : Bus) (d : Dev) : (setBus n x d).loops = d.loops := rfl
@[simp] theorem setBus_zones (n : Nat) (x : Bus) (d : Dev) : (setBus n x d).zones = d.zones := rfl
@[simp] theorem setBus_clk (n : Nat) (x : Bus) (d : Dev) : (setBus n x d).clk = d.clk := rfl
@[simp] theorem setBus_sched (n : Nat) (x : Bus) (d : Dev) : (setBus n x d).sched = d.sched := rfl
@[simp] theorem setBus_inp (n : Nat) (x : Bus) (d : Dev) : (setBus n x d).inp = d.inp := rfl
@[simp] theorem setBus_coil (n : Nat) (x : Bus) (d : Dev) : (setBus n x d).coil = d.coil := rfl
@[simp] theorem setBus_out (n : Nat) (x : Bus) (d : Dev) : (setBus n x d).out = { d.out with buses := Tab.set {} d.out.buses n x } := rfl
@[simp] theorem setBus_ports (n : Nat) (x : Bus) (d : Dev) : (setBus n x d).ports = d.ports := rfl
@[simp] theorem setBus_kw (n : Nat) (x : Bus) (d : Dev) : (setBus n x d).kw = d.kw := rfl
@[simp] theorem setBus_belay (n : Nat) (x : Bus) (d : Dev) : (setBus n x d).belay = d.belay := rfl
@[simp] theorem setBus_pair (n : Nat) (x : Bus) (d : Dev) : (setBus n x d).pair = d.pair := rfl
@[simp] theorem setBus_integ (n : Nat) (x : Bus) (d : Dev) : (setBus n x d).integ = d.integ := rfl
@[simp] theorem setBus_hif (n : Nat) (x : Bus) (d : Dev) : (setBus n x d).hif = d.hif := rfl
@[simp] theorem setBus_lop (n : Nat) (x : Bus) (d : Dev) : (setBus n x d).lop = d.lop := rfl
@[simp] theorem setBus_sec (n : Nat) (x : Bus) (d : Dev) : (setBus n x d).sec = d.sec := rfl
@[simp] theorem setBus_lk (n : Nat) (x : Bus) (d : Dev) : (setBus n x d).lk = d.lk := rfl
@[simp] theorem setBus_th (n : Nat) (x : Bus) (d : Dev) : (setBus n x d).th = d.th := rfl
@[simp] theorem setBus_nvm (n : Nat) (x : Bus) (d : Dev) : (setBus n x d).nvm = d.nvm := rfl
@[simp] theorem setBus_power (n : Nat) (x : Bus) (d : Dev) : (setBus n x d).power = d.power := rfl
@[simp] theorem setBus_tow (n : Nat) (x : Bus) (d : Dev) : (setBus n x d).tow = d.tow := rfl
@[simp] theorem setBus_drawn (n : Nat) (x : Bus) (d : Dev) : (setBus n x d).drawn = d.drawn := rfl
@[simp] theorem setBus_outbox (n : Nat) (x : Bus) (d : Dev) : (setBus n x d).outbox = d.outbox := rfl

@[simp] theorem setPort_tb (n : Nat) (x : Port) (d : Dev) : (setPort n x d).tb = d.tb := rfl
@[simp] theorem setPort_link (n : Nat) (x : Port) (d : Dev) : (setPort n x d).link = d.link := rfl
@[simp] theorem setPort_pe (n : Nat) (x : Port) (d : Dev) : (setPort n x d).pe = d.pe := rfl
@[simp] theorem setPort_loops (n : Nat) (x : Port) (d : Dev) : (setPort n x d).loops = d.loops := rfl
@[simp] theorem setPort_zones (n : Nat) (x : Port) (d : Dev) : (setPort n x d).zones = d.zones := rfl
@[simp] theorem setPort_clk (n : Nat) (x : Port) (d : Dev) : (setPort n x d).clk = d.clk := rfl
@[simp] theorem setPort_sched (n : Nat) (x : Port) (d : Dev) : (setPort n x d).sched = d.sched := rfl
@[simp] theorem setPort_inp (n : Nat) (x : Port) (d : Dev) : (setPort n x d).inp = d.inp := rfl
@[simp] theorem setPort_coil (n : Nat) (x : Port) (d : Dev) : (setPort n x d).coil = d.coil := rfl
@[simp] theorem setPort_out (n : Nat) (x : Port) (d : Dev) : (setPort n x d).out = d.out := rfl
@[simp] theorem setPort_ports (n : Nat) (x : Port) (d : Dev) : (setPort n x d).ports = { d.ports with ports := Tab.set {} d.ports.ports n x } := rfl
@[simp] theorem setPort_kw (n : Nat) (x : Port) (d : Dev) : (setPort n x d).kw = d.kw := rfl
@[simp] theorem setPort_belay (n : Nat) (x : Port) (d : Dev) : (setPort n x d).belay = d.belay := rfl
@[simp] theorem setPort_pair (n : Nat) (x : Port) (d : Dev) : (setPort n x d).pair = d.pair := rfl
@[simp] theorem setPort_integ (n : Nat) (x : Port) (d : Dev) : (setPort n x d).integ = d.integ := rfl
@[simp] theorem setPort_hif (n : Nat) (x : Port) (d : Dev) : (setPort n x d).hif = d.hif := rfl
@[simp] theorem setPort_lop (n : Nat) (x : Port) (d : Dev) : (setPort n x d).lop = d.lop := rfl
@[simp] theorem setPort_sec (n : Nat) (x : Port) (d : Dev) : (setPort n x d).sec = d.sec := rfl
@[simp] theorem setPort_lk (n : Nat) (x : Port) (d : Dev) : (setPort n x d).lk = d.lk := rfl
@[simp] theorem setPort_th (n : Nat) (x : Port) (d : Dev) : (setPort n x d).th = d.th := rfl
@[simp] theorem setPort_nvm (n : Nat) (x : Port) (d : Dev) : (setPort n x d).nvm = d.nvm := rfl
@[simp] theorem setPort_power (n : Nat) (x : Port) (d : Dev) : (setPort n x d).power = d.power := rfl
@[simp] theorem setPort_tow (n : Nat) (x : Port) (d : Dev) : (setPort n x d).tow = d.tow := rfl
@[simp] theorem setPort_drawn (n : Nat) (x : Port) (d : Dev) : (setPort n x d).drawn = d.drawn := rfl
@[simp] theorem setPort_outbox (n : Nat) (x : Port) (d : Dev) : (setPort n x d).outbox = d.outbox := rfl

@[simp] theorem setSq_tb (n : Nat) (x : Ring) (d : Dev) : (setSq n x d).tb = d.tb := rfl
@[simp] theorem setSq_link (n : Nat) (x : Ring) (d : Dev) : (setSq n x d).link = d.link := rfl
@[simp] theorem setSq_pe (n : Nat) (x : Ring) (d : Dev) : (setSq n x d).pe = d.pe := rfl
@[simp] theorem setSq_loops (n : Nat) (x : Ring) (d : Dev) : (setSq n x d).loops = d.loops := rfl
@[simp] theorem setSq_zones (n : Nat) (x : Ring) (d : Dev) : (setSq n x d).zones = d.zones := rfl
@[simp] theorem setSq_clk (n : Nat) (x : Ring) (d : Dev) : (setSq n x d).clk = d.clk := rfl
@[simp] theorem setSq_sched (n : Nat) (x : Ring) (d : Dev) : (setSq n x d).sched = d.sched := rfl
@[simp] theorem setSq_inp (n : Nat) (x : Ring) (d : Dev) : (setSq n x d).inp = d.inp := rfl
@[simp] theorem setSq_coil (n : Nat) (x : Ring) (d : Dev) : (setSq n x d).coil = d.coil := rfl
@[simp] theorem setSq_out (n : Nat) (x : Ring) (d : Dev) : (setSq n x d).out = d.out := rfl
@[simp] theorem setSq_ports (n : Nat) (x : Ring) (d : Dev) : (setSq n x d).ports = d.ports := rfl
@[simp] theorem setSq_kw (n : Nat) (x : Ring) (d : Dev) : (setSq n x d).kw = d.kw := rfl
@[simp] theorem setSq_belay (n : Nat) (x : Ring) (d : Dev) : (setSq n x d).belay = d.belay := rfl
@[simp] theorem setSq_pair (n : Nat) (x : Ring) (d : Dev) : (setSq n x d).pair = d.pair := rfl
@[simp] theorem setSq_integ (n : Nat) (x : Ring) (d : Dev) : (setSq n x d).integ = d.integ := rfl
@[simp] theorem setSq_hif (n : Nat) (x : Ring) (d : Dev) : (setSq n x d).hif = { d.hif with sqs := Tab.set {} d.hif.sqs n x } := rfl
@[simp] theorem setSq_lop (n : Nat) (x : Ring) (d : Dev) : (setSq n x d).lop = d.lop := rfl
@[simp] theorem setSq_sec (n : Nat) (x : Ring) (d : Dev) : (setSq n x d).sec = d.sec := rfl
@[simp] theorem setSq_lk (n : Nat) (x : Ring) (d : Dev) : (setSq n x d).lk = d.lk := rfl
@[simp] theorem setSq_th (n : Nat) (x : Ring) (d : Dev) : (setSq n x d).th = d.th := rfl
@[simp] theorem setSq_nvm (n : Nat) (x : Ring) (d : Dev) : (setSq n x d).nvm = d.nvm := rfl
@[simp] theorem setSq_power (n : Nat) (x : Ring) (d : Dev) : (setSq n x d).power = d.power := rfl
@[simp] theorem setSq_tow (n : Nat) (x : Ring) (d : Dev) : (setSq n x d).tow = d.tow := rfl
@[simp] theorem setSq_drawn (n : Nat) (x : Ring) (d : Dev) : (setSq n x d).drawn = d.drawn := rfl
@[simp] theorem setSq_outbox (n : Nat) (x : Ring) (d : Dev) : (setSq n x d).outbox = d.outbox := rfl

@[simp] theorem setCq_tb (n : Nat) (x : Ring) (d : Dev) : (setCq n x d).tb = d.tb := rfl
@[simp] theorem setCq_link (n : Nat) (x : Ring) (d : Dev) : (setCq n x d).link = d.link := rfl
@[simp] theorem setCq_pe (n : Nat) (x : Ring) (d : Dev) : (setCq n x d).pe = d.pe := rfl
@[simp] theorem setCq_loops (n : Nat) (x : Ring) (d : Dev) : (setCq n x d).loops = d.loops := rfl
@[simp] theorem setCq_zones (n : Nat) (x : Ring) (d : Dev) : (setCq n x d).zones = d.zones := rfl
@[simp] theorem setCq_clk (n : Nat) (x : Ring) (d : Dev) : (setCq n x d).clk = d.clk := rfl
@[simp] theorem setCq_sched (n : Nat) (x : Ring) (d : Dev) : (setCq n x d).sched = d.sched := rfl
@[simp] theorem setCq_inp (n : Nat) (x : Ring) (d : Dev) : (setCq n x d).inp = d.inp := rfl
@[simp] theorem setCq_coil (n : Nat) (x : Ring) (d : Dev) : (setCq n x d).coil = d.coil := rfl
@[simp] theorem setCq_out (n : Nat) (x : Ring) (d : Dev) : (setCq n x d).out = d.out := rfl
@[simp] theorem setCq_ports (n : Nat) (x : Ring) (d : Dev) : (setCq n x d).ports = d.ports := rfl
@[simp] theorem setCq_kw (n : Nat) (x : Ring) (d : Dev) : (setCq n x d).kw = d.kw := rfl
@[simp] theorem setCq_belay (n : Nat) (x : Ring) (d : Dev) : (setCq n x d).belay = d.belay := rfl
@[simp] theorem setCq_pair (n : Nat) (x : Ring) (d : Dev) : (setCq n x d).pair = d.pair := rfl
@[simp] theorem setCq_integ (n : Nat) (x : Ring) (d : Dev) : (setCq n x d).integ = d.integ := rfl
@[simp] theorem setCq_hif (n : Nat) (x : Ring) (d : Dev) : (setCq n x d).hif = { d.hif with cqs := Tab.set {} d.hif.cqs n x } := rfl
@[simp] theorem setCq_lop (n : Nat) (x : Ring) (d : Dev) : (setCq n x d).lop = d.lop := rfl
@[simp] theorem setCq_sec (n : Nat) (x : Ring) (d : Dev) : (setCq n x d).sec = d.sec := rfl
@[simp] theorem setCq_lk (n : Nat) (x : Ring) (d : Dev) : (setCq n x d).lk = d.lk := rfl
@[simp] theorem setCq_th (n : Nat) (x : Ring) (d : Dev) : (setCq n x d).th = d.th := rfl
@[simp] theorem setCq_nvm (n : Nat) (x : Ring) (d : Dev) : (setCq n x d).nvm = d.nvm := rfl
@[simp] theorem setCq_power (n : Nat) (x : Ring) (d : Dev) : (setCq n x d).power = d.power := rfl
@[simp] theorem setCq_tow (n : Nat) (x : Ring) (d : Dev) : (setCq n x d).tow = d.tow := rfl
@[simp] theorem setCq_drawn (n : Nat) (x : Ring) (d : Dev) : (setCq n x d).drawn = d.drawn := rfl
@[simp] theorem setCq_outbox (n : Nat) (x : Ring) (d : Dev) : (setCq n x d).outbox = d.outbox := rfl

@[simp] theorem setWin_tb (n : Nat) (x : Window) (d : Dev) : (setWin n x d).tb = d.tb := rfl
@[simp] theorem setWin_link (n : Nat) (x : Window) (d : Dev) : (setWin n x d).link = d.link := rfl
@[simp] theorem setWin_pe (n : Nat) (x : Window) (d : Dev) : (setWin n x d).pe = d.pe := rfl
@[simp] theorem setWin_loops (n : Nat) (x : Window) (d : Dev) : (setWin n x d).loops = d.loops := rfl
@[simp] theorem setWin_zones (n : Nat) (x : Window) (d : Dev) : (setWin n x d).zones = d.zones := rfl
@[simp] theorem setWin_clk (n : Nat) (x : Window) (d : Dev) : (setWin n x d).clk = d.clk := rfl
@[simp] theorem setWin_sched (n : Nat) (x : Window) (d : Dev) : (setWin n x d).sched = d.sched := rfl
@[simp] theorem setWin_inp (n : Nat) (x : Window) (d : Dev) : (setWin n x d).inp = d.inp := rfl
@[simp] theorem setWin_coil (n : Nat) (x : Window) (d : Dev) : (setWin n x d).coil = d.coil := rfl
@[simp] theorem setWin_out (n : Nat) (x : Window) (d : Dev) : (setWin n x d).out = d.out := rfl
@[simp] theorem setWin_ports (n : Nat) (x : Window) (d : Dev) : (setWin n x d).ports = d.ports := rfl
@[simp] theorem setWin_kw (n : Nat) (x : Window) (d : Dev) : (setWin n x d).kw = d.kw := rfl
@[simp] theorem setWin_belay (n : Nat) (x : Window) (d : Dev) : (setWin n x d).belay = d.belay := rfl
@[simp] theorem setWin_pair (n : Nat) (x : Window) (d : Dev) : (setWin n x d).pair = d.pair := rfl
@[simp] theorem setWin_integ (n : Nat) (x : Window) (d : Dev) : (setWin n x d).integ = d.integ := rfl
@[simp] theorem setWin_hif (n : Nat) (x : Window) (d : Dev) : (setWin n x d).hif = { d.hif with wins := Tab.set {} d.hif.wins n x } := rfl
@[simp] theorem setWin_lop (n : Nat) (x : Window) (d : Dev) : (setWin n x d).lop = d.lop := rfl
@[simp] theorem setWin_sec (n : Nat) (x : Window) (d : Dev) : (setWin n x d).sec = d.sec := rfl
@[simp] theorem setWin_lk (n : Nat) (x : Window) (d : Dev) : (setWin n x d).lk = d.lk := rfl
@[simp] theorem setWin_th (n : Nat) (x : Window) (d : Dev) : (setWin n x d).th = d.th := rfl
@[simp] theorem setWin_nvm (n : Nat) (x : Window) (d : Dev) : (setWin n x d).nvm = d.nvm := rfl
@[simp] theorem setWin_power (n : Nat) (x : Window) (d : Dev) : (setWin n x d).power = d.power := rfl
@[simp] theorem setWin_tow (n : Nat) (x : Window) (d : Dev) : (setWin n x d).tow = d.tow := rfl
@[simp] theorem setWin_drawn (n : Nat) (x : Window) (d : Dev) : (setWin n x d).drawn = d.drawn := rfl
@[simp] theorem setWin_outbox (n : Nat) (x : Window) (d : Dev) : (setWin n x d).outbox = d.outbox := rfl

@[simp] theorem setLops_tb (t : Tab LongOp) (d : Dev) : (setLops t d).tb = d.tb := rfl
@[simp] theorem setLops_link (t : Tab LongOp) (d : Dev) : (setLops t d).link = d.link := rfl
@[simp] theorem setLops_pe (t : Tab LongOp) (d : Dev) : (setLops t d).pe = d.pe := rfl
@[simp] theorem setLops_loops (t : Tab LongOp) (d : Dev) : (setLops t d).loops = d.loops := rfl
@[simp] theorem setLops_zones (t : Tab LongOp) (d : Dev) : (setLops t d).zones = d.zones := rfl
@[simp] theorem setLops_clk (t : Tab LongOp) (d : Dev) : (setLops t d).clk = d.clk := rfl
@[simp] theorem setLops_sched (t : Tab LongOp) (d : Dev) : (setLops t d).sched = d.sched := rfl
@[simp] theorem setLops_inp (t : Tab LongOp) (d : Dev) : (setLops t d).inp = d.inp := rfl
@[simp] theorem setLops_coil (t : Tab LongOp) (d : Dev) : (setLops t d).coil = d.coil := rfl
@[simp] theorem setLops_out (t : Tab LongOp) (d : Dev) : (setLops t d).out = d.out := rfl
@[simp] theorem setLops_ports (t : Tab LongOp) (d : Dev) : (setLops t d).ports = d.ports := rfl
@[simp] theorem setLops_kw (t : Tab LongOp) (d : Dev) : (setLops t d).kw = d.kw := rfl
@[simp] theorem setLops_belay (t : Tab LongOp) (d : Dev) : (setLops t d).belay = d.belay := rfl
@[simp] theorem setLops_pair (t : Tab LongOp) (d : Dev) : (setLops t d).pair = d.pair := rfl
@[simp] theorem setLops_integ (t : Tab LongOp) (d : Dev) : (setLops t d).integ = d.integ := rfl
@[simp] theorem setLops_hif (t : Tab LongOp) (d : Dev) : (setLops t d).hif = d.hif := rfl
@[simp] theorem setLops_lop (t : Tab LongOp) (d : Dev) : (setLops t d).lop = { d.lop with slots := t } := rfl
@[simp] theorem setLops_sec (t : Tab LongOp) (d : Dev) : (setLops t d).sec = d.sec := rfl
@[simp] theorem setLops_lk (t : Tab LongOp) (d : Dev) : (setLops t d).lk = d.lk := rfl
@[simp] theorem setLops_th (t : Tab LongOp) (d : Dev) : (setLops t d).th = d.th := rfl
@[simp] theorem setLops_nvm (t : Tab LongOp) (d : Dev) : (setLops t d).nvm = d.nvm := rfl
@[simp] theorem setLops_power (t : Tab LongOp) (d : Dev) : (setLops t d).power = d.power := rfl
@[simp] theorem setLops_tow (t : Tab LongOp) (d : Dev) : (setLops t d).tow = d.tow := rfl
@[simp] theorem setLops_drawn (t : Tab LongOp) (d : Dev) : (setLops t d).drawn = d.drawn := rfl
@[simp] theorem setLops_outbox (t : Tab LongOp) (d : Dev) : (setLops t d).outbox = d.outbox := rfl

@[simp] theorem putEntry_tb (n : Nat) (x : AngleEntry) (d : Dev) : (putEntry n x d).tb = { d.tb with entries := Tab.put d.tb.entries n x } := rfl
@[simp] theorem putEntry_link (n : Nat) (x : AngleEntry) (d : Dev) : (putEntry n x d).link = d.link := rfl
@[simp] theorem putEntry_pe (n : Nat) (x : AngleEntry) (d : Dev) : (putEntry n x d).pe = d.pe := rfl
@[simp] theorem putEntry_loops (n : Nat) (x : AngleEntry) (d : Dev) : (putEntry n x d).loops = d.loops := rfl
@[simp] theorem putEntry_zones (n : Nat) (x : AngleEntry) (d : Dev) : (putEntry n x d).zones = d.zones := rfl
@[simp] theorem putEntry_clk (n : Nat) (x : AngleEntry) (d : Dev) : (putEntry n x d).clk = d.clk := rfl
@[simp] theorem putEntry_sched (n : Nat) (x : AngleEntry) (d : Dev) : (putEntry n x d).sched = d.sched := rfl
@[simp] theorem putEntry_inp (n : Nat) (x : AngleEntry) (d : Dev) : (putEntry n x d).inp = d.inp := rfl
@[simp] theorem putEntry_coil (n : Nat) (x : AngleEntry) (d : Dev) : (putEntry n x d).coil = d.coil := rfl
@[simp] theorem putEntry_out (n : Nat) (x : AngleEntry) (d : Dev) : (putEntry n x d).out = d.out := rfl
@[simp] theorem putEntry_ports (n : Nat) (x : AngleEntry) (d : Dev) : (putEntry n x d).ports = d.ports := rfl
@[simp] theorem putEntry_kw (n : Nat) (x : AngleEntry) (d : Dev) : (putEntry n x d).kw = d.kw := rfl
@[simp] theorem putEntry_belay (n : Nat) (x : AngleEntry) (d : Dev) : (putEntry n x d).belay = d.belay := rfl
@[simp] theorem putEntry_pair (n : Nat) (x : AngleEntry) (d : Dev) : (putEntry n x d).pair = d.pair := rfl
@[simp] theorem putEntry_integ (n : Nat) (x : AngleEntry) (d : Dev) : (putEntry n x d).integ = d.integ := rfl
@[simp] theorem putEntry_hif (n : Nat) (x : AngleEntry) (d : Dev) : (putEntry n x d).hif = d.hif := rfl
@[simp] theorem putEntry_lop (n : Nat) (x : AngleEntry) (d : Dev) : (putEntry n x d).lop = d.lop := rfl
@[simp] theorem putEntry_sec (n : Nat) (x : AngleEntry) (d : Dev) : (putEntry n x d).sec = d.sec := rfl
@[simp] theorem putEntry_lk (n : Nat) (x : AngleEntry) (d : Dev) : (putEntry n x d).lk = d.lk := rfl
@[simp] theorem putEntry_th (n : Nat) (x : AngleEntry) (d : Dev) : (putEntry n x d).th = d.th := rfl
@[simp] theorem putEntry_nvm (n : Nat) (x : AngleEntry) (d : Dev) : (putEntry n x d).nvm = d.nvm := rfl
@[simp] theorem putEntry_power (n : Nat) (x : AngleEntry) (d : Dev) : (putEntry n x d).power = d.power := rfl
@[simp] theorem putEntry_tow (n : Nat) (x : AngleEntry) (d : Dev) : (putEntry n x d).tow = d.tow := rfl
@[simp] theorem putEntry_drawn (n : Nat) (x : AngleEntry) (d : Dev) : (putEntry n x d).drawn = d.drawn := rfl
@[simp] theorem putEntry_outbox (n : Nat) (x : AngleEntry) (d : Dev) : (putEntry n x d).outbox = d.outbox := rfl

@[simp] theorem dropEntry_tb (n : Nat) (d : Dev) : (dropEntry n d).tb = { d.tb with entries := Tab.del d.tb.entries n } := rfl
@[simp] theorem dropEntry_link (n : Nat) (d : Dev) : (dropEntry n d).link = d.link := rfl
@[simp] theorem dropEntry_pe (n : Nat) (d : Dev) : (dropEntry n d).pe = d.pe := rfl
@[simp] theorem dropEntry_loops (n : Nat) (d : Dev) : (dropEntry n d).loops = d.loops := rfl
@[simp] theorem dropEntry_zones (n : Nat) (d : Dev) : (dropEntry n d).zones = d.zones := rfl
@[simp] theorem dropEntry_clk (n : Nat) (d : Dev) : (dropEntry n d).clk = d.clk := rfl
@[simp] theorem dropEntry_sched (n : Nat) (d : Dev) : (dropEntry n d).sched = d.sched := rfl
@[simp] theorem dropEntry_inp (n : Nat) (d : Dev) : (dropEntry n d).inp = d.inp := rfl
@[simp] theorem dropEntry_coil (n : Nat) (d : Dev) : (dropEntry n d).coil = d.coil := rfl
@[simp] theorem dropEntry_out (n : Nat) (d : Dev) : (dropEntry n d).out = d.out := rfl
@[simp] theorem dropEntry_ports (n : Nat) (d : Dev) : (dropEntry n d).ports = d.ports := rfl
@[simp] theorem dropEntry_kw (n : Nat) (d : Dev) : (dropEntry n d).kw = d.kw := rfl
@[simp] theorem dropEntry_belay (n : Nat) (d : Dev) : (dropEntry n d).belay = d.belay := rfl
@[simp] theorem dropEntry_pair (n : Nat) (d : Dev) : (dropEntry n d).pair = d.pair := rfl
@[simp] theorem dropEntry_integ (n : Nat) (d : Dev) : (dropEntry n d).integ = d.integ := rfl
@[simp] theorem dropEntry_hif (n : Nat) (d : Dev) : (dropEntry n d).hif = d.hif := rfl
@[simp] theorem dropEntry_lop (n : Nat) (d : Dev) : (dropEntry n d).lop = d.lop := rfl
@[simp] theorem dropEntry_sec (n : Nat) (d : Dev) : (dropEntry n d).sec = d.sec := rfl
@[simp] theorem dropEntry_lk (n : Nat) (d : Dev) : (dropEntry n d).lk = d.lk := rfl
@[simp] theorem dropEntry_th (n : Nat) (d : Dev) : (dropEntry n d).th = d.th := rfl
@[simp] theorem dropEntry_nvm (n : Nat) (d : Dev) : (dropEntry n d).nvm = d.nvm := rfl
@[simp] theorem dropEntry_power (n : Nat) (d : Dev) : (dropEntry n d).power = d.power := rfl
@[simp] theorem dropEntry_tow (n : Nat) (d : Dev) : (dropEntry n d).tow = d.tow := rfl
@[simp] theorem dropEntry_drawn (n : Nat) (d : Dev) : (dropEntry n d).drawn = d.drawn := rfl
@[simp] theorem dropEntry_outbox (n : Nat) (d : Dev) : (dropEntry n d).outbox = d.outbox := rfl

@[simp] theorem setRole_tb (n : Nat) (d : Dev) : (setRole n d).tb = d.tb := rfl
@[simp] theorem setRole_link (n : Nat) (d : Dev) : (setRole n d).link = d.link := rfl
@[simp] theorem setRole_pe (n : Nat) (d : Dev) : (setRole n d).pe = d.pe := rfl
@[simp] theorem setRole_loops (n : Nat) (d : Dev) : (setRole n d).loops = d.loops := rfl
@[simp] theorem setRole_zones (n : Nat) (d : Dev) : (setRole n d).zones = d.zones := rfl
@[simp] theorem setRole_clk (n : Nat) (d : Dev) : (setRole n d).clk = d.clk := rfl
@[simp] theorem setRole_sched (n : Nat) (d : Dev) : (setRole n d).sched = d.sched := rfl
@[simp] theorem setRole_inp (n : Nat) (d : Dev) : (setRole n d).inp = d.inp := rfl
@[simp] theorem setRole_coil (n : Nat) (d : Dev) : (setRole n d).coil = d.coil := rfl
@[simp] theorem setRole_out (n : Nat) (d : Dev) : (setRole n d).out = d.out := rfl
@[simp] theorem setRole_ports (n : Nat) (d : Dev) : (setRole n d).ports = d.ports := rfl
@[simp] theorem setRole_kw (n : Nat) (d : Dev) : (setRole n d).kw = d.kw := rfl
@[simp] theorem setRole_belay (n : Nat) (d : Dev) : (setRole n d).belay = d.belay := rfl
@[simp] theorem setRole_pair (n : Nat) (d : Dev) : (setRole n d).pair = { d.pair with role := n } := rfl
@[simp] theorem setRole_integ (n : Nat) (d : Dev) : (setRole n d).integ = d.integ := rfl
@[simp] theorem setRole_hif (n : Nat) (d : Dev) : (setRole n d).hif = d.hif := rfl
@[simp] theorem setRole_lop (n : Nat) (d : Dev) : (setRole n d).lop = d.lop := rfl
@[simp] theorem setRole_sec (n : Nat) (d : Dev) : (setRole n d).sec = d.sec := rfl
@[simp] theorem setRole_lk (n : Nat) (d : Dev) : (setRole n d).lk = d.lk := rfl
@[simp] theorem setRole_th (n : Nat) (d : Dev) : (setRole n d).th = d.th := rfl
@[simp] theorem setRole_nvm (n : Nat) (d : Dev) : (setRole n d).nvm = d.nvm := rfl
@[simp] theorem setRole_power (n : Nat) (d : Dev) : (setRole n d).power = d.power := rfl
@[simp] theorem setRole_tow (n : Nat) (d : Dev) : (setRole n d).tow = d.tow := rfl
@[simp] theorem setRole_drawn (n : Nat) (d : Dev) : (setRole n d).drawn = d.drawn := rfl
@[simp] theorem setRole_outbox (n : Nat) (d : Dev) : (setRole n d).outbox = d.outbox := rfl

@[simp] theorem hostWrite_tb (n : Nat) (x : List Byte) (d : Dev) : (hostWrite n x d).tb = d.tb := rfl
@[simp] theorem hostWrite_link (n : Nat) (x : List Byte) (d : Dev) : (hostWrite n x d).link = d.link := rfl
@[simp] theorem hostWrite_pe (n : Nat) (x : List Byte) (d : Dev) : (hostWrite n x d).pe = d.pe := rfl
@[simp] theorem hostWrite_loops (n : Nat) (x : List Byte) (d : Dev) : (hostWrite n x d).loops = d.loops := rfl
@[simp] theorem hostWrite_zones (n : Nat) (x : List Byte) (d : Dev) : (hostWrite n x d).zones = d.zones := rfl
@[simp] theorem hostWrite_clk (n : Nat) (x : List Byte) (d : Dev) : (hostWrite n x d).clk = d.clk := rfl
@[simp] theorem hostWrite_sched (n : Nat) (x : List Byte) (d : Dev) : (hostWrite n x d).sched = d.sched := rfl
@[simp] theorem hostWrite_inp (n : Nat) (x : List Byte) (d : Dev) : (hostWrite n x d).inp = d.inp := rfl
@[simp] theorem hostWrite_coil (n : Nat) (x : List Byte) (d : Dev) : (hostWrite n x d).coil = d.coil := rfl
@[simp] theorem hostWrite_out (n : Nat) (x : List Byte) (d : Dev) : (hostWrite n x d).out = d.out := rfl
@[simp] theorem hostWrite_ports (n : Nat) (x : List Byte) (d : Dev) : (hostWrite n x d).ports = d.ports := rfl
@[simp] theorem hostWrite_kw (n : Nat) (x : List Byte) (d : Dev) : (hostWrite n x d).kw = d.kw := rfl
@[simp] theorem hostWrite_belay (n : Nat) (x : List Byte) (d : Dev) : (hostWrite n x d).belay = d.belay := rfl
@[simp] theorem hostWrite_pair (n : Nat) (x : List Byte) (d : Dev) : (hostWrite n x d).pair = d.pair := rfl
@[simp] theorem hostWrite_integ (n : Nat) (x : List Byte) (d : Dev) : (hostWrite n x d).integ = d.integ := rfl
@[simp] theorem hostWrite_hif (n : Nat) (x : List Byte) (d : Dev) : (hostWrite n x d).hif = { d.hif with mem := memWriteList d.hif.mem n x } := rfl
@[simp] theorem hostWrite_lop (n : Nat) (x : List Byte) (d : Dev) : (hostWrite n x d).lop = d.lop := rfl
@[simp] theorem hostWrite_sec (n : Nat) (x : List Byte) (d : Dev) : (hostWrite n x d).sec = d.sec := rfl
@[simp] theorem hostWrite_lk (n : Nat) (x : List Byte) (d : Dev) : (hostWrite n x d).lk = d.lk := rfl
@[simp] theorem hostWrite_th (n : Nat) (x : List Byte) (d : Dev) : (hostWrite n x d).th = d.th := rfl
@[simp] theorem hostWrite_nvm (n : Nat) (x : List Byte) (d : Dev) : (hostWrite n x d).nvm = d.nvm := rfl
@[simp] theorem hostWrite_power (n : Nat) (x : List Byte) (d : Dev) : (hostWrite n x d).power = d.power := rfl
@[simp] theorem hostWrite_tow (n : Nat) (x : List Byte) (d : Dev) : (hostWrite n x d).tow = d.tow := rfl
@[simp] theorem hostWrite_drawn (n : Nat) (x : List Byte) (d : Dev) : (hostWrite n x d).drawn = d.drawn := rfl
@[simp] theorem hostWrite_outbox (n : Nat) (x : List Byte) (d : Dev) : (hostWrite n x d).outbox = d.outbox := rfl

@[simp] theorem emit_tb (o : Output) (d : Dev) : (emit o d).tb = d.tb := rfl
@[simp] theorem emit_link (o : Output) (d : Dev) : (emit o d).link = d.link := rfl
@[simp] theorem emit_pe (o : Output) (d : Dev) : (emit o d).pe = d.pe := rfl
@[simp] theorem emit_loops (o : Output) (d : Dev) : (emit o d).loops = d.loops := rfl
@[simp] theorem emit_zones (o : Output) (d : Dev) : (emit o d).zones = d.zones := rfl
@[simp] theorem emit_clk (o : Output) (d : Dev) : (emit o d).clk = d.clk := rfl
@[simp] theorem emit_sched (o : Output) (d : Dev) : (emit o d).sched = d.sched := rfl
@[simp] theorem emit_inp (o : Output) (d : Dev) : (emit o d).inp = d.inp := rfl
@[simp] theorem emit_coil (o : Output) (d : Dev) : (emit o d).coil = d.coil := rfl
@[simp] theorem emit_out (o : Output) (d : Dev) : (emit o d).out = d.out := rfl
@[simp] theorem emit_ports (o : Output) (d : Dev) : (emit o d).ports = d.ports := rfl
@[simp] theorem emit_kw (o : Output) (d : Dev) : (emit o d).kw = d.kw := rfl
@[simp] theorem emit_belay (o : Output) (d : Dev) : (emit o d).belay = d.belay := rfl
@[simp] theorem emit_pair (o : Output) (d : Dev) : (emit o d).pair = d.pair := rfl
@[simp] theorem emit_integ (o : Output) (d : Dev) : (emit o d).integ = d.integ := rfl
@[simp] theorem emit_hif (o : Output) (d : Dev) : (emit o d).hif = d.hif := rfl
@[simp] theorem emit_lop (o : Output) (d : Dev) : (emit o d).lop = d.lop := rfl
@[simp] theorem emit_sec (o : Output) (d : Dev) : (emit o d).sec = d.sec := rfl
@[simp] theorem emit_lk (o : Output) (d : Dev) : (emit o d).lk = d.lk := rfl
@[simp] theorem emit_th (o : Output) (d : Dev) : (emit o d).th = d.th := rfl
@[simp] theorem emit_nvm (o : Output) (d : Dev) : (emit o d).nvm = d.nvm := rfl
@[simp] theorem emit_power (o : Output) (d : Dev) : (emit o d).power = d.power := rfl
@[simp] theorem emit_tow (o : Output) (d : Dev) : (emit o d).tow = d.tow := rfl
@[simp] theorem emit_drawn (o : Output) (d : Dev) : (emit o d).drawn = d.drawn := rfl
@[simp] theorem emit_outbox (o : Output) (d : Dev) : (emit o d).outbox = d.outbox ++ [o] := rfl

@[simp] theorem drew_tb (d : Dev) : (drew d).tb = d.tb := rfl
@[simp] theorem drew_link (d : Dev) : (drew d).link = d.link := rfl
@[simp] theorem drew_pe (d : Dev) : (drew d).pe = d.pe := rfl
@[simp] theorem drew_loops (d : Dev) : (drew d).loops = d.loops := rfl
@[simp] theorem drew_zones (d : Dev) : (drew d).zones = d.zones := rfl
@[simp] theorem drew_clk (d : Dev) : (drew d).clk = d.clk := rfl
@[simp] theorem drew_sched (d : Dev) : (drew d).sched = d.sched := rfl
@[simp] theorem drew_inp (d : Dev) : (drew d).inp = d.inp := rfl
@[simp] theorem drew_coil (d : Dev) : (drew d).coil = d.coil := rfl
@[simp] theorem drew_out (d : Dev) : (drew d).out = d.out := rfl
@[simp] theorem drew_ports (d : Dev) : (drew d).ports = d.ports := rfl
@[simp] theorem drew_kw (d : Dev) : (drew d).kw = d.kw := rfl
@[simp] theorem drew_belay (d : Dev) : (drew d).belay = d.belay := rfl
@[simp] theorem drew_pair (d : Dev) : (drew d).pair = d.pair := rfl
@[simp] theorem drew_integ (d : Dev) : (drew d).integ = d.integ := rfl
@[simp] theorem drew_hif (d : Dev) : (drew d).hif = d.hif := rfl
@[simp] theorem drew_lop (d : Dev) : (drew d).lop = d.lop := rfl
@[simp] theorem drew_sec (d : Dev) : (drew d).sec = d.sec := rfl
@[simp] theorem drew_lk (d : Dev) : (drew d).lk = d.lk := rfl
@[simp] theorem drew_th (d : Dev) : (drew d).th = d.th := rfl
@[simp] theorem drew_nvm (d : Dev) : (drew d).nvm = d.nvm := rfl
@[simp] theorem drew_power (d : Dev) : (drew d).power = d.power := rfl
@[simp] theorem drew_tow (d : Dev) : (drew d).tow = d.tow := rfl
@[simp] theorem drew_drawn (d : Dev) : (drew d).drawn = d.drawn + 1 := rfl
@[simp] theorem drew_outbox (d : Dev) : (drew d).outbox = d.outbox := rfl

@[simp] theorem setTrack_tb (c : Cluster) (t : Track) (d : Dev) : (setTrack c t d).tb = d.tb := by cases c <;> rfl
@[simp] theorem setTrack_link (c : Cluster) (t : Track) (d : Dev) : (setTrack c t d).link = d.link := by cases c <;> rfl
@[simp] theorem setTrack_pe (c : Cluster) (t : Track) (d : Dev) : (setTrack c t d).pe = d.pe := by cases c <;> rfl
@[simp] theorem setTrack_loops (c : Cluster) (t : Track) (d : Dev) : (setTrack c t d).loops = d.loops := by cases c <;> rfl
@[simp] theorem setTrack_zones (c : Cluster) (t : Track) (d : Dev) : (setTrack c t d).zones = d.zones := by cases c <;> rfl
@[simp] theorem setTrack_clk (c : Cluster) (t : Track) (d : Dev) : (setTrack c t d).clk = d.clk := by cases c <;> rfl
@[simp] theorem setTrack_sched (c : Cluster) (t : Track) (d : Dev) : (setTrack c t d).sched = d.sched := by cases c <;> rfl
@[simp] theorem setTrack_inp (c : Cluster) (t : Track) (d : Dev) : (setTrack c t d).inp = d.inp := by cases c <;> rfl
@[simp] theorem setTrack_coil (c : Cluster) (t : Track) (d : Dev) : (setTrack c t d).coil = d.coil := by cases c <;> rfl
@[simp] theorem setTrack_out (c : Cluster) (t : Track) (d : Dev) : (setTrack c t d).out = d.out := by cases c <;> rfl
@[simp] theorem setTrack_ports (c : Cluster) (t : Track) (d : Dev) : (setTrack c t d).ports = d.ports := by cases c <;> rfl
@[simp] theorem setTrack_kw (c : Cluster) (t : Track) (d : Dev) : (setTrack c t d).kw = d.kw := by cases c <;> rfl
@[simp] theorem setTrack_pair (c : Cluster) (t : Track) (d : Dev) : (setTrack c t d).pair = d.pair := by cases c <;> rfl
@[simp] theorem setTrack_integ (c : Cluster) (t : Track) (d : Dev) : (setTrack c t d).integ = d.integ := by cases c <;> rfl
@[simp] theorem setTrack_hif (c : Cluster) (t : Track) (d : Dev) : (setTrack c t d).hif = d.hif := by cases c <;> rfl
@[simp] theorem setTrack_lop (c : Cluster) (t : Track) (d : Dev) : (setTrack c t d).lop = d.lop := by cases c <;> rfl
@[simp] theorem setTrack_sec (c : Cluster) (t : Track) (d : Dev) : (setTrack c t d).sec = d.sec := by cases c <;> rfl
@[simp] theorem setTrack_lk (c : Cluster) (t : Track) (d : Dev) : (setTrack c t d).lk = d.lk := by cases c <;> rfl
@[simp] theorem setTrack_th (c : Cluster) (t : Track) (d : Dev) : (setTrack c t d).th = d.th := by cases c <;> rfl
@[simp] theorem setTrack_nvm (c : Cluster) (t : Track) (d : Dev) : (setTrack c t d).nvm = d.nvm := by cases c <;> rfl
@[simp] theorem setTrack_power (c : Cluster) (t : Track) (d : Dev) : (setTrack c t d).power = d.power := by cases c <;> rfl
@[simp] theorem setTrack_tow (c : Cluster) (t : Track) (d : Dev) : (setTrack c t d).tow = d.tow := by cases c <;> rfl
@[simp] theorem setTrack_drawn (c : Cluster) (t : Track) (d : Dev) : (setTrack c t d).drawn = d.drawn := by cases c <;> rfl
@[simp] theorem setTrack_outbox (c : Cluster) (t : Track) (d : Dev) : (setTrack c t d).outbox = d.outbox := by cases c <;> rfl

end Sys2Proof.Machine
end

