-- ==== Sys2Proof/Laws/Settle.lean ====
section
/-! SUPPORT. Settle: what the delivery of waiting events can change, and that it changes nothing else. -/
namespace Sys2Proof.Machine

theorem calm_forEach (l : List α) {f : α → Dev → Dev} (h : ∀ a d, calm (f a d) = calm d) (d : Dev) :
    calm (forEach l f d) = calm d := by
  unfold forEach
  induction l generalizing d with
  | nil => rfl
  | cons a l ih => rw [List.foldl_cons, ih, h]

theorem calm_forRange (n : Nat) {f : Nat → Dev → Dev} (h : ∀ a d, calm (f a d) = calm d) (d : Dev) :
    calm (forRange n f d) = calm d := calm_forEach _ h d

@[simp] theorem calm_putSub (i : Nat) (s : Sub) (d : Dev) : calm (putSub i s d) = calm d := rfl
@[simp] theorem calm_putLimit (r : Word) (l : Limit) (d : Dev) : calm (putLimit r l d) = calm d := rfl
@[simp] theorem calm_wakeLoop (i : Nat) (d : Dev) : calm (wakeLoop i d) = calm d := rfl
@[simp] theorem calm_setAdc (c : Nat) (a : Adc) (d : Dev) : calm (setAdc c a d) = calm d := rfl
@[simp] theorem calm_signal (v : Nat) (d : Dev) : calm (signal v d) = calm d := by
  unfold signal; split <;> rfl
@[simp] theorem calm_emit (o : Output) (d : Dev) : calm (emit o d) = calm d := rfl
@[simp] theorem calm_hostWrite (a : Nat) (b : List Byte) (d : Dev) : calm (hostWrite a b d) = calm d := rfl
@[simp] theorem calm_setCq (n : Nat) (r : Ring) (d : Dev) : calm (setCq n r d) = calm d := rfl

@[simp] theorem calm_writeEntry (n : Nat) (ws : List Word) (a b : Word) (q : Bool) (d : Dev) :
    calm (writeEntry n ws a b q d) = calm d := by
  unfold writeEntry
  dsimp only
  split
  · rw [calm_signal, calm_setCq, calm_hostWrite]
  · rw [calm_setCq, calm_hostWrite]

@[simp] theorem calm_postEvent (n : Nat) (e : Event) (d : Dev) : calm (postEvent n e d) = calm d :=
  calm_writeEntry ..

theorem calm_tryPost (n : Nat) (e : Event) {f : Dev → Dev} (h : ∀ d, calm (f d) = calm d) (d : Dev) :
    calm (tryPost n e f d) = calm d := by
  unfold tryPost
  split
  · rw [h, calm_postEvent]
  · rfl

@[simp] theorem calm_postAlarm (n : Nat) (a : Alarm) (d : Dev) : calm (postAlarm n a d) = calm d := by
  unfold postAlarm
  refine calm_tryPost n _ ?_ d
  exact fun _ => rfl

@[simp] theorem calm_postAlarms (n : Nat) (d : Dev) : calm (postAlarms n d) = calm d :=
  calm_forEach _ (fun a d => calm_postAlarm n a d) d

@[simp] theorem calm_postLost (n : Nat) (d : Dev) : calm (postLost n d) = calm d := by
  unfold postLost
  split
  · rfl
  · refine calm_tryPost n _ ?_ d
    exact fun _ => rfl

@[simp] theorem calm_postReady (n l : Nat) (d : Dev) : calm (postReady n l d) = calm d := by
  unfold postReady
  split
  · split
    · refine calm_tryPost n _ ?_ d
      exact fun _ => rfl
    · rfl
  · rfl

@[simp] theorem calm_pushLog (l : Nat) (x : Sample) (d : Dev) : calm (pushLog l x d) = calm d := by
  unfold pushLog
  dsimp only
  split
  · split
    · rw [calm_postReady, calm_postLost, calm_postAlarms]; rfl
    · rfl
  · rfl

@[simp] theorem calm_captureLog (a b : Nat) (r : Rec) (s : Stamp) (m : Nat) (d : Dev) :
    calm (captureLog a b r s m d) = calm d := by
  unfold captureLog
  split
  · rfl
  · dsimp only
    rw [calm_pushLog]
    split <;> split <;> (try rw [calm_pushLog]) <;> (try rw [calm_pushLog]) <;> rfl

theorem calm_requestUrgent (c : Nat) (u : Urgent) (d : Dev) : calm ((requestUrgent c u d).getD d) = calm d := by
  unfold requestUrgent
  dsimp only
  split
  · rfl
  · rfl
  · split <;> rfl

@[simp] theorem calm_startDiag (ch : Nat) (d : Dev) : calm (startDiag ch d) = calm d := by
  unfold startDiag
  dsimp only
  split
  · rfl
  · exact calm_forRange 2 (fun _ d => calm_requestUrgent _ _ d) d

@[simp] theorem calm_holdCore (c : Nat) (d : Dev) : calm (holdCore c d) = calm d := by
  have h : (Tab.mapVals (holdCore c d).ports.ports fun _ x => { x with held := false }) =
      Tab.mapVals d.ports.ports fun _ x => { x with held := false } := by
    simp only [holdCore, Tab.mapVals, List.map_map]
    refine List.map_congr_left fun p _ => ?_
    simp only [Function.comp]
    split <;> rfl
  unfold calm
  rw [h]
  rfl

@[simp] theorem calm_dispatchTest (u : Nat) (t : UnitTest) (d : Dev) : calm (dispatchTest u t d) = calm d := by
  unfold dispatchTest
  split
  · rfl
  · dsimp only
    split
    · rfl
    · split
      · rw [calm_requestUrgent]; rfl
      · split
        · rw [calm_startDiag]; rfl
        · split
          · rw [calm_holdCore]; rfl
          · rfl

@[simp] theorem calm_errorTest (u : Nat) (d : Dev) : calm (errorTest u d) = calm d := by
  unfold errorTest; split <;> simp

@[simp] theorem calm_refreshCov (i : Nat) (d : Dev) : calm (refreshCov i d) = calm d := by
  unfold refreshCov
  split
  · dsimp only; split <;> rfl
  · rfl

@[simp] theorem calm_noteSub (r : Rec) (i : Nat) (d : Dev) : calm (noteSub r i d) = calm d := by
  unfold noteSub
  split
  · split
    · rfl
    · split
      · simp
      · split
        · simp
        · split <;> rfl
  · rfl

@[simp] theorem calm_noteChange (i : Nat) (d : Dev) : calm (noteChange i d) = calm d := by
  unfold noteChange
  split
  · rw [calm_refreshCov, calm_forEach _ (fun a d => calm_noteSub _ a d)]
  · rfl

@[simp] theorem calm_raiseAlarm (i a b : Nat) (l : Limit) (r : Rec) (d : Dev) : calm (raiseAlarm i a b l r d) = calm d := by
  unfold raiseAlarm
  dsimp only
  split <;> rfl

@[simp] theorem calm_enterLimit (i : Nat) (w : Word) (t : Nat) (d : Dev) : calm (enterLimit i w t d) = calm d := by
  unfold enterLimit
  split
  · rename_i l r _ _
    exact calm_raiseAlarm i (limitState l) t l r d
  · rfl

@[simp] theorem calm_evalLimit (i : Nat) (w : Word) (k : Nat) (d : Dev) : calm (evalLimit i w k d) = calm d := by
  induction k generalizing d with
  | zero => rfl
  | succ k ih =>
    unfold evalLimit
    split
    · dsimp only
      split
      · simp
      · split
        · rw [ih]; simp
        · split
          · split <;> rfl
          · split <;> split <;> first | rfl | (rw [ih]; simp)
    · rfl

@[simp] theorem calm_afterStore (i : Nat) (d : Dev) : calm (afterStore i d) = calm d := by
  unfold afterStore; split <;> simp

@[simp] theorem calm_putRec (i : Nat) (o r : Rec) (d : Dev) : calm (putRec i o r d) = calm d := by
  unfold putRec; dsimp only; split <;> rfl

@[simp] theorem calm_failRecord (i : Nat) (r : Rec) (d : Dev) : calm (failRecord i r d) = calm d := by
  unfold failRecord
  dsimp only
  rw [calm_errorTest, calm_afterStore, calm_putRec]
  rfl

@[simp] theorem calm_readRec (i : Nat) (d : Dev) : calm (readRec i d).2 = calm d := by
  unfold readRec
  split
  · rfl
  · split <;> simp

@[simp] theorem calm_postCov (n i : Nat) (d : Dev) : calm (postCov n i d) = calm d := by
  unfold postCov
  split
  · split
    · rfl
    · dsimp only
      split
      · split
        · simp
        · simp
      · rfl
  · rfl

@[simp] theorem calm_postZone (n z : Nat) (d : Dev) : calm (postZone n z d) = calm d := by
  unfold postZone
  split
  · split
    · refine calm_forEach _ (fun i d => ?_) d
      split
      · refine calm_tryPost n _ ?_ d
        exact fun _ => rfl
      · rfl
    · rfl
  · rfl

@[simp] theorem calm_postTimes (n : Nat) (d : Dev) : calm (postTimes n d) = calm d := by
  unfold postTimes
  split
  · refine calm_forEach _ (fun p d => ?_) d
    refine calm_tryPost n _ ?_ d
    exact fun _ => rfl
  · rfl

@[simp] theorem calm_postAngle (n i : Nat) (d : Dev) : calm (postAngle n i d) = calm d := by
  unfold postAngle
  split
  · split
    · refine calm_tryPost n _ ?_ d
      exact fun _ => rfl
    · rfl
  · rfl

@[simp] theorem calm_postProgress (n i : Nat) (d : Dev) : calm (postProgress n i d) = calm d := by
  unfold postProgress
  split
  · split
    · refine calm_tryPost n _ ?_ d
      exact fun _ => rfl
    · rfl
  · rfl

theorem calm_flushCq (n : Nat) (d : Dev) : calm (flushCq n d) = calm d := by
  unfold flushCq
  split
  · rfl
  · dsimp only
    rw [calm_forEach _ (fun i d => calm_postProgress n i d), calm_forEach _ (fun i d => calm_postAngle n i d),
      calm_postTimes, calm_forEach _ (fun i d => calm_postZone n i d), calm_forEach _ (fun i d => calm_postReady n i d),
      calm_forEach _ (fun i d => calm_postCov n i d), calm_postLost, calm_postAlarms]

/-- Deliveries change nothing but what `calm` blanks. -/
@[simp] theorem calm_settle (d : Dev) : calm (settle d) = calm d := calm_forRange 32 calm_flushCq d

/-- With the interface off nothing is posted. -/
theorem eventRoom_off {d : Dev} (n : Nat) (h : d.hif.enabled = false) : eventRoom d n = false := by
  simp [eventRoom, h]

theorem flushCq_off {d : Dev} (n : Nat) (h : d.hif.enabled = false) : flushCq n d = d := by
  unfold flushCq
  rw [eventRoom_off n h]
  rfl

theorem settle_off {d : Dev} (h : d.hif.enabled = false) : settle d = d := by
  unfold settle forRange forEach
  induction (List.range 32) with
  | nil => rfl
  | cons a l ih => rw [List.foldl_cons, flushCq_off a h, ih]

theorem calm_field {β : Type} (f : Dev → β) {d e : Dev} (hf : ∀ x, f (calm x) = f x) (h : calm d = calm e) : f d = f e := by
  rw [← hf d, h, hf]

@[simp] theorem settle_link (d : Dev) : (settle d).link = d.link := calm_field Dev.link (fun _ => rfl) (calm_settle d)
@[simp] theorem settle_sched (d : Dev) : (settle d).sched = d.sched := calm_field Dev.sched (fun _ => rfl) (calm_settle d)
@[simp] theorem settle_coil (d : Dev) : (settle d).coil = d.coil := calm_field Dev.coil (fun _ => rfl) (calm_settle d)
@[simp] theorem settle_out (d : Dev) : (settle d).out = d.out := calm_field Dev.out (fun _ => rfl) (calm_settle d)
@[simp] theorem settle_portMap (d : Dev) : (settle d).ports.map = d.ports.map :=
  calm_field (fun d => d.ports.map) (fun _ => rfl) (calm_settle d)
@[simp] theorem settle_kw (d : Dev) : (settle d).kw = d.kw := calm_field Dev.kw (fun _ => rfl) (calm_settle d)
@[simp] theorem settle_belay (d : Dev) : (settle d).belay = d.belay := calm_field Dev.belay (fun _ => rfl) (calm_settle d)
@[simp] theorem settle_sec (d : Dev) : (settle d).sec = d.sec := calm_field Dev.sec (fun _ => rfl) (calm_settle d)
@[simp] theorem settle_lk (d : Dev) : (settle d).lk = d.lk := calm_field Dev.lk (fun _ => rfl) (calm_settle d)
@[simp] theorem settle_th (d : Dev) : (settle d).th = d.th := calm_field Dev.th (fun _ => rfl) (calm_settle d)
@[simp] theorem settle_nvm (d : Dev) : (settle d).nvm = d.nvm := calm_field Dev.nvm (fun _ => rfl) (calm_settle d)
@[simp] theorem settle_power (d : Dev) : (settle d).power = d.power := calm_field Dev.power (fun _ => rfl) (calm_settle d)
@[simp] theorem settle_tow (d : Dev) : (settle d).tow = d.tow := calm_field Dev.tow (fun _ => rfl) (calm_settle d)
@[simp] theorem settle_drawn (d : Dev) : (settle d).drawn = d.drawn := calm_field Dev.drawn (fun _ => rfl) (calm_settle d)

end Sys2Proof.Machine
end

