-- ==== Sys2Proof/Laws/Host.lean ====
section
/-! SUPPORT. Host: how a ready host command runs: its body on the device, then its answer. -/
namespace Sys2Proof.Machine

@[simp] theorem fresh_outbox (s : State) : (fresh s).outbox = [] := rfl
@[simp] theorem after_dev (s : State) (d : Dev) : (after s d).dev = d := rfl
@[simp] theorem after_pending (s : State) (d : Dev) : (after s d).pending = s.pending := rfl

theorem run_eq (f : Dev → Dev) (s : State) : run f s = .next (after s (f (fresh s))) := rfl

/-- A ready command's body runs, and its outcome is concluded. -/
theorem hostExec_ready {op : Nat} {c : HostCmd} {s : State} (body : HostCmd → Dev → Option Done × Dev)
    (h : Ready op c s) :
    run (hostExec op body c) s = .next (after s (conclude op c (body (trim c) (fresh s)))) := by
  obtain ⟨h1, h2, h3, f, h4, h5⟩ := h
  have g1 : coreRuns (fresh s) = true := h1
  have g2 : gate op (fresh s) = none := h2
  have g3 : (fresh s).pe.upset = none := h3
  have g4 : (fresh s).hif.fetched.find? (fun f => sameCmd op c f && !f.begun && f.verdict.isNone) = some f := h4
  have g5 : ringHeld op f (fresh s) = false := h5
  have g6 : f.verdict.isSome = false := by
    have := List.find?_some h4
    simp only [Bool.and_eq_true] at this
    cases hv : f.verdict with
    | none => rfl
    | some v => simp [hv] at this
  have g7 : comparedBody op body (trim c) (fresh s) = body (trim c) (fresh s) := by
    unfold comparedBody
    split
    · rfl
    · simp only [compared, g3, ite_self]; rfl
  rw [run_eq]
  congr 2
  simp only [hostExec, g1, takeFetched, g4, g5, g6, g2, g7]
  rfl

/-- A ready command whose body gives results answers them. -/
theorem hostExec_done {op : Nat} {c : HostCmd} {s : State} {body : HostCmd → Dev → Option Done × Dev} {x : Done} {d : Dev}
    (h : Ready op c s) (hb : body (trim c) (fresh s) = (some x, d)) :
    run (hostExec op body c) s = .next (replied op c x d s) := by
  rw [hostExec_ready body h, hb]
  rfl

/-- A ready command whose body waits has begun. -/
theorem hostExec_waits {op : Nat} {c : HostCmd} {s : State} {body : HostCmd → Dev → Option Done × Dev} {d : Dev}
    (h : Ready op c s) (hb : body (trim c) (fresh s) = (none, d)) :
    run (hostExec op body c) s = .next (awaiting op c d s) := by
  rw [hostExec_ready body h, hb]
  rfl

end Sys2Proof.Machine
end

