-- ==== Sys2Proof/Laws/Tab.lean ====
section
/-! SUPPORT. Tab: the laws of the sparse tables and of host memory: reading back, the frame of a write, the canonical
form. -/
namespace Sys2Proof

@[simp] theorem Tab.find_nil (k : Nat) : Tab.find ([] : Tab α) k = none := rfl
@[simp] theorem Tab.get_nil (d : α) (k : Nat) : Tab.get d [] k = d := rfl

@[simp] theorem Tab.find_put_same (t : Tab α) (k : Nat) (v : α) : Tab.find (Tab.put t k v) k = some v := by
  induction t with
  | nil => simp [Tab.put, Tab.find]
  | cons p t ih =>
    obtain ⟨j, u⟩ := p
    simp only [Tab.put]
    split
    · simp [Tab.find]
    · split
      · simp [Tab.find]
      · rename_i h1 h2
        simp [Tab.find, ih, Ne.symm h2]

theorem Tab.find_put_other (t : Tab α) {k m : Nat} (v : α) (h : m ≠ k) : Tab.find (Tab.put t k v) m = Tab.find t m := by
  induction t with
  | nil => simp [Tab.put, Tab.find, Ne.symm h]
  | cons p t ih =>
    obtain ⟨j, u⟩ := p
    simp only [Tab.put]
    split
    · simp [Tab.find, Ne.symm h]
    · split
      · rename_i h1 h2
        subst h2
        simp [Tab.find, Ne.symm h]
      · simp [Tab.find, ih]

theorem Tab.find_del_other (t : Tab α) {k m : Nat} (h : m ≠ k) : Tab.find (Tab.del t k) m = Tab.find t m := by
  induction t with
  | nil => rfl
  | cons p t ih =>
    obtain ⟨j, u⟩ := p
    simp only [Tab.del]
    split
    · rename_i e
      subst e
      simp [Tab.find, Ne.symm h, ih]
    · simp [Tab.find, ih]

theorem Tab.above_find {t : Tab α} {lo k : Nat} (h : Tab.above lo t = true) (hk : k ≤ lo) : Tab.find t k = none := by
  induction t generalizing lo with
  | nil => rfl
  | cons p t ih =>
    obtain ⟨j, u⟩ := p
    simp only [Tab.above, Bool.and_eq_true, decide_eq_true_eq] at h
    have hj : ¬ j = k := by omega
    simp [Tab.find, hj, ih h.2 (by omega)]

theorem Tab.above_mono {t : Tab α} {a b : Nat} (h : Tab.above b t = true) (hab : a ≤ b) : Tab.above a t = true := by
  cases t with
  | nil => rfl
  | cons p t =>
    obtain ⟨j, u⟩ := p
    simp only [Tab.above, Bool.and_eq_true, decide_eq_true_eq] at h ⊢
    exact ⟨by omega, h.2⟩

theorem Tab.wf_cons {t : Tab α} {k : Nat} {v : α} : Tab.wf ((k, v) :: t) = Tab.above k t := rfl

theorem Tab.above_wf {t : Tab α} {k : Nat} (h : Tab.above k t = true) : Tab.wf t = true := by
  cases t with
  | nil => rfl
  | cons p t =>
    obtain ⟨j, u⟩ := p
    simp only [Tab.above, Bool.and_eq_true] at h
    exact h.2

theorem Tab.above_put {t : Tab α} {lo k : Nat} (v : α) (h : Tab.above lo t = true) (hk : lo < k) :
    Tab.above lo (Tab.put t k v) = true := by
  induction t generalizing lo with
  | nil => simp [Tab.put, Tab.above, hk]
  | cons p t ih =>
    obtain ⟨j, u⟩ := p
    simp only [Tab.above, Bool.and_eq_true, decide_eq_true_eq] at h
    simp only [Tab.put]
    split
    · simp [Tab.above, hk, h.2]; assumption
    · split
      · rename_i e
        subst e
        simp [Tab.above, hk, h.2]
      · rename_i h1 h2
        simp only [Tab.above, Bool.and_eq_true, decide_eq_true_eq]
        exact ⟨h.1, ih h.2 (by omega)⟩

theorem Tab.wf_put {t : Tab α} (k : Nat) (v : α) (h : Tab.wf t = true) : Tab.wf (Tab.put t k v) = true := by
  cases t with
  | nil => rfl
  | cons p t =>
    obtain ⟨j, u⟩ := p
    rw [Tab.wf_cons] at h
    simp only [Tab.put]
    split
    · simp [Tab.wf, Tab.above, h]; assumption
    · split
      · rename_i e
        subst e
        exact h
      · rename_i h1 h2
        rw [Tab.wf_cons]
        exact Tab.above_put v h (by omega)

theorem Tab.above_del {t : Tab α} {lo : Nat} (k : Nat) (h : Tab.above lo t = true) : Tab.above lo (Tab.del t k) = true := by
  induction t generalizing lo with
  | nil => rfl
  | cons p t ih =>
    obtain ⟨j, u⟩ := p
    simp only [Tab.above, Bool.and_eq_true, decide_eq_true_eq] at h
    simp only [Tab.del]
    split
    · exact ih (Tab.above_mono h.2 (by omega))
    · simp only [Tab.above, Bool.and_eq_true, decide_eq_true_eq]
      exact ⟨h.1, ih h.2⟩

theorem Tab.wf_del {t : Tab α} (k : Nat) (h : Tab.wf t = true) : Tab.wf (Tab.del t k) = true := by
  cases t with
  | nil => rfl
  | cons p t =>
    obtain ⟨j, u⟩ := p
    rw [Tab.wf_cons] at h
    simp only [Tab.del]
    split
    · exact Tab.above_wf (Tab.above_del k h)
    · rw [Tab.wf_cons]
      exact Tab.above_del k h

@[simp] theorem Tab.find_del_same (t : Tab α) (k : Nat) : Tab.find (Tab.del t k) k = none := by
  induction t with
  | nil => rfl
  | cons p t ih =>
    obtain ⟨j, u⟩ := p
    simp only [Tab.del]
    split
    · exact ih
    · rename_i e
      simp [Tab.find, e, ih]

@[simp] theorem Tab.get_set_same [DecidableEq α] (t : Tab α) (d : α) (k : Nat) (v : α) :
    Tab.get d (Tab.set d t k v) k = v := by
  unfold Tab.set Tab.get
  split
  · rename_i e
    rw [Tab.find_del_same t k, e]
    rfl
  · simp

theorem Tab.get_set_other [DecidableEq α] (t : Tab α) (d : α) {k m : Nat} (v : α) (h : m ≠ k) :
    Tab.get d (Tab.set d t k v) m = Tab.get d t m := by
  unfold Tab.set Tab.get
  split
  · rw [Tab.find_del_other t h]
  · rw [Tab.find_put_other t v h]

theorem Tab.wf_set [DecidableEq α] {t : Tab α} (d : α) (k : Nat) (v : α) (h : Tab.wf t = true) :
    Tab.wf (Tab.set d t k v) = true := by
  unfold Tab.set
  split
  · exact Tab.wf_del k h
  · exact Tab.wf_put k v h

theorem Tab.all_put {t : Tab α} {p : Nat × α → Bool} {k : Nat} {v : α} (h : t.all p = true) (hv : p (k, v) = true) :
    (Tab.put t k v).all p = true := by
  induction t with
  | nil => simp [Tab.put, hv]
  | cons q t ih =>
    obtain ⟨j, u⟩ := q
    simp only [List.all_cons, Bool.and_eq_true] at h
    simp only [Tab.put]
    split
    · simp only [List.all_cons, Bool.and_eq_true]
      exact ⟨hv, h⟩
    · split
      · simp only [List.all_cons, Bool.and_eq_true]
        exact ⟨hv, h.2⟩
      · simp only [List.all_cons, Bool.and_eq_true]
        exact ⟨h.1, ih h.2⟩

theorem Tab.all_del {t : Tab α} {p : Nat × α → Bool} (k : Nat) (h : t.all p = true) : (Tab.del t k).all p = true := by
  induction t with
  | nil => rfl
  | cons q t ih =>
    obtain ⟨j, u⟩ := q
    simp only [List.all_cons, Bool.and_eq_true] at h
    simp only [Tab.del]
    split
    · exact ih h.2
    · simp only [List.all_cons, Bool.and_eq_true]
      exact ⟨h.1, ih h.2⟩

namespace Machine

/-- Every write of host memory keeps its canonical form. -/
theorem memWrite_wf {m : Tab Byte} (a : Nat) (v : Byte) (h : memWf m = true) : memWf (memWrite m a v) = true := by
  simp only [memWf, Bool.and_eq_true] at h ⊢
  refine ⟨Tab.wf_set 0#8 a v h.1, ?_⟩
  unfold memWrite Tab.set
  split
  · exact Tab.all_del a h.2
  · rename_i e
    exact Tab.all_put h.2 (by simp [bne, e])

theorem memWriteList_wf (bs : List Byte) {m : Tab Byte} (a : Nat) (h : memWf m = true) :
    memWf (memWriteList m a bs) = true := by
  induction bs generalizing m a with
  | nil => exact h
  | cons b bs ih => exact ih (a + 1) (memWrite_wf a b h)

theorem memRead_write_same (m : Tab Byte) (a : Nat) (v : Byte) : memRead (memWrite m a v) a = v :=
  Tab.get_set_same m 0#8 a v

theorem memRead_write_other (m : Tab Byte) {a b : Nat} (v : Byte) (h : b ≠ a) :
    memRead (memWrite m a v) b = memRead m b := Tab.get_set_other m 0#8 v h

theorem memRead_writeList_outside (bs : List Byte) (m : Tab Byte) {a b : Nat} (h : b < a ∨ a + bs.length ≤ b) :
    memRead (memWriteList m a bs) b = memRead m b := by
  induction bs generalizing m a with
  | nil => rfl
  | cons v bs ih =>
    simp only [List.length_cons] at h
    simp only [memWriteList]
    rw [ih (memWrite m a v) (by omega), memRead_write_other m v (by omega)]

end Machine
end Sys2Proof
end

