-- ==== Sys2Proof/Tests/Slice0.lean ====
section
/-! SUPPORT. Slice0: tests. The checks of WellFormed each refuse a term; every statement of the Obligations that has
hypotheses has a witness here, one part for each of its clauses; a few single steps with results worked out by hand from
the manual. -/
namespace Sys2Proof.Tests
open Sys2Proof.Machine

/-! ## Small states -/

def plan0 : Plan :=
  { pair := true, points := 8192, commandable := 200, subs := 100, loopMib := 1, loops := 64, zones := 16 }

/-- A booted device with a memory plan and an enabled interface: one window over the first 2 MiB, rings 0 and 1. -/
def up : Dev :=
  { pe := { plan := some plan0 }
    power := { pendingCause := none, booted := true, calDue := false }
    nvm := { scanDone := true }
    hif :=
      { enabled := true, ready := true, linkUp := true, versHost := 6#32, dbLo := 0x1000#32, spLo := 0x1200#32
        wins := [(0, { pages := 512#32, ctrl := 7#32 })]
        sqs := [(0, { lo := 0x10000#32, cfg := 0x80000005#32, rev := 2 }), (1, { lo := 0x14000#32, cfg := 0x80000005#32, rev := 2 })]
        cqs := [(0, { lo := 0x11000#32, cfg := 0xC0000006#32 }), (1, { lo := 0x13000#32, cfg := 0xC0000006#32 })] } }

/-- The same with the interface not enabled. -/
def down : Dev := { up with hif := { up.hif with enabled := false } }

def at0 (d : Dev) : State := { dev := d }

def cmd : HostCmd :=
  { sq := 0, tag := 7#32, target := 0#32, count := 0#32, p0 := 0#32, p1 := 0#32, p2 := 0#32, p3 := 0#32, irqNow := false
    fmt := 0, authSlot := 255, authSeq := 0, authTag := List.replicate 12 0#8, bufAddr := 0x20000, bufLen := 0, buf := [] }

/-- With a buffer that holds these words, bytes, or zeros. -/
def withBytes (c : HostCmd) (b : List Byte) : HostCmd := { c with bufLen := b.length, buf := b }
def withWords (c : HostCmd) (ws : List Word) : HostCmd := withBytes c (wordsBytes ws)
def room (c : HostCmd) (n : Nat) : HostCmd := { c with bufLen := n, buf := [] }

/-- A device that has fetched the command. -/
def host (op : Nat) (c : HostCmd) (d : Dev) : State :=
  at0 { d with hif := { d.hif with fetched := [⟨op, c, none, false, 0, false⟩] } }

/-- `Ready`, evaluated. -/
def readyB (op : Nat) (c : HostCmd) (s : State) : Bool :=
  coreRuns s.dev && (gate op s.dev).isNone && s.dev.pe.upset.isNone &&
  match s.dev.hif.fetched.find? fun f => sameCmd op c f && !f.begun && f.verdict.isNone with
  | some f => !ringHeld op f s.dev
  | none => false

theorem ready_of {op : Nat} {c : HostCmd} {s : State} (h : readyB op c s = true) : Ready op c s := by
  unfold readyB at h
  split at h
  · rename_i f hf
    simp only [Bool.and_eq_true, Option.isNone_iff_eq_none, Bool.not_eq_true'] at h
    exact ⟨h.1.1.1, h.1.1.2, h.1.2, f, hf, h.2⟩
  · simp at h

/-- There are a command and a state in which it is ready and the other hypotheses hold. -/
def Case (op : Nat) (p : HostCmd → State → Prop) : Prop := ∃ c s, Ready op c s ∧ p c s

theorem case {op : Nat} {p : HostCmd → State → Prop} (c : HostCmd) (d : Dev) (h : readyB op c (host op c d) = true)
    (hp : p c (host op c d)) : Case op p := ⟨c, host op c d, ready_of h, hp⟩

theorem case_all {α : Type} {op : Nat} {p : α → HostCmd → State → Prop} {l : List α} (f : α → HostCmd) (d : Dev)
    [∀ x, Decidable (p x (f x) (host op (f x) d))]
    (h : (l.all fun x => readyB op (f x) (host op (f x) d) && decide (p x (f x) (host op (f x) d))) = true) :
    ∀ x ∈ l, Case op (p x) := fun x m =>
  have y := Bool.and_eq_true_iff.mp (List.all_eq_true.mp h x m)
  case (f x) d y.1 (of_decide_eq_true y.2)

/-! ## Witnesses -/

theorem witness_queue :
    (∃ (c : Instr) (rest : List Instr) (s : State), s.pending = c :: rest) ∧
    (∃ (k : Nat) (s : State), k ≤ s.pending.length ∧ k = 2) ∧
    (∃ s t : State, queueOk s ∧ step s = .next t ∧ s.pending ≠ []) :=
  ⟨⟨.refReady, [], { pending := [.refReady] }, rfl⟩, ⟨2, { pending := [.refReady, .pfiDeassert] }, by decide⟩,
    ⟨{ pending := [.pfiDeassert] }, _, by unfold queueOk; decide, rfl, by decide⟩⟩

theorem witness_HostMemoryReadsBack :
    ∃ (m : Tab Byte) (a : Nat) (bs : List Byte), memWf m = true ∧ 5 < a ∧ a + bs.length ≤ 8 ∧ memRead m 5 ≠ 0#8 :=
  ⟨[(5, 1#8)], 6, [0#8, 2#8], by decide⟩

theorem witness_HostInterfaceLife :
    (∃ s : State, s.dev.hif.enabled = false ∧ setupError s.dev = none) ∧
    (∃ s : State, s.dev.hif.enabled = false ∧ setupError s.dev = some (1, 0)) ∧
    (∃ s : State, s.dev.hif.enabled = true) :=
  ⟨⟨at0 down, by decide +kernel⟩, ⟨State.reset, by decide +kernel⟩, ⟨at0 up, rfl⟩⟩

theorem witness_SetupWrites :
    (∃ s : State, s.dev.hif.enabled = false) ∧
    (∃ (n : Fin 32) (v : Word) (s : State), s.dev.hif.enabled = true ∧ ringOn (ringOf s.dev true n.val) = true ∧ bit v 31 = true) ∧
    (∃ (w : Fin 64) (v : Word) (s : State),
      s.dev.hif.enabled = true ∧ bit (winOf s.dev w.val).ctrl 0 = true ∧ bit v 0 = true) ∧
    (∃ s : State, s.dev.hif.sluice = false) ∧ (∃ s : State, s.dev.hif.sluice = true) :=
  ⟨⟨at0 down, rfl⟩, ⟨1, 0x80000000#32, at0 up, by decide +kernel⟩, ⟨0, 1#32, at0 up, by decide +kernel⟩, ⟨at0 up, rfl⟩,
    ⟨at0 { up with hif := { up.hif with sluice := true } }, rfl⟩⟩

theorem witness_PagesAndCoalescing :
    (∃ s : State, s.dev.hif.enabled = false) ∧
    (∃ s : State, coreRuns s.dev = true ∧ s.dev.hif.enabled = true ∧ canRead s.dev (dbAddr s.dev) 512 = true) ∧
    (∃ s : State, coreRuns s.dev = true ∧ s.dev.hif.enabled = true ∧ canWrite s.dev (spAddr s.dev) 512 = true ∧
      memWf s.dev.hif.mem = true) ∧
    (∀ m ∈ [0, 1], ∃ (n : Fin 32) (s : State), bit (cqOf s.dev n.val).cfg 30 = true ∧ (cqOf s.dev n.val).counted ≠ 0 ∧
      fld (cqOf s.dev n.val).coal 31 16 ≠ 0 ∧ s.dev.hif.msixMask / 2 ^ n.val % 2 = m) :=
  ⟨⟨at0 down, rfl⟩, ⟨at0 up, by decide +kernel⟩, ⟨at0 up, by decide +kernel⟩, fun m h =>
    ⟨1, at0 (setCq 1 { cqOf up 1 with coal := 0x10004#32, counted := 1 } { up with hif := { up.hif with msixMask := 2 * m } }),
      by revert m; decide +kernel⟩⟩

theorem witness_ControlCommands :
    Case 0x0000 (fun _ _ => True) ∧
    (∀ x ∈ [(2#32, true, false), (3#32, false, false), (0#32, false, true)], Case 0x0001 (fun c s => c.target.toNat < 32 ∧
      decide (fld c.p0 1 0 ≠ 0 ∧ fld c.p0 1 0 ≤ agreed s.dev) = x.2.1 ∧ decide (fld c.p0 1 0 = 0) = x.2.2 ∧
      (x.1 = 3#32 → agreed s.dev < fld c.p0 1 0))) ∧
    Case 0x0001 (fun c _ => 32 ≤ c.target.toNat) ∧
    Case 0x0002 (fun c _ => bit c.p1 23 = true) ∧ Case 0x0003 (fun c _ => bit c.p1 23 = false) ∧
    Case 0x0008 (fun c s => (s.dev.hif.fetched.find? (sameCmd 0x0008 c)).isSome = true) ∧
    (∃ (n : Fin 32) (s : State),
      (s.dev.hif.fetched.find? (fun g => g.opcode == 8 && g.begun && g.cmd.sq.val == n.val)).isSome = true) :=
  ⟨case cmd up (by decide +kernel) trivial,
    case_all (fun x => { cmd with target := 31#32, p0 := x.1 }) up (by decide +kernel),
    case { cmd with target := 32#32 } up (by decide +kernel) (by decide +kernel),
    case { cmd with p1 := 0x800000#32 } up (by decide +kernel) (by decide +kernel),
    case cmd up (by decide +kernel) (by decide +kernel), case cmd up (by decide +kernel) (by decide +kernel),
    ⟨0, at0 { up with hif := { up.hif with fetched := [⟨8, cmd, none, true, 3, false⟩] } }, by decide +kernel⟩⟩

theorem witness_CompletionPosted :
    ∃ (c : HostCmd) (d : Dev), d.hif.enabled = true ∧ ringOn (cqOf d c.sq.val) = true ∧ memWf d.hif.mem = true :=
  ⟨cmd, up, by decide +kernel⟩

theorem witness_SettleFrame :
    (∃ d : Dev, d.hif.enabled = false) ∧ (∃ d : Dev, d.hif.sluice = true) :=
  ⟨⟨down, rfl⟩, ⟨{ up with hif := { up.hif with sluice := true } }, rfl⟩⟩

theorem witness_DieLinkCommands :
    (∃ s : State, s.dev.link.coreLost = true ∧ s.dev.link.fieldLost = true ∧ s.dev.belay.ownerUnit = 0) ∧
    (∃ s : State, s.dev.link.fieldLost = true ∧ s.dev.belay.ownerUnit ≠ 0) ∧
    (∃ s : State, s.dev.link.coreLost = false ∧ s.dev.link.fieldLost = false ∧ s.dev.pe.plan.isSome = true) :=
  ⟨⟨at0 { up with link := { coreLost := true, fieldLost := true } }, by decide⟩,
    ⟨at0 { up with link := { fieldLost := true }, belay := { ownerUnit := 1 } }, by decide⟩, ⟨at0 up, by decide⟩⟩

/-- Timebase in a state, everything else as `up`. -/
def inTb (t : Timebase) : State := at0 { up with tb := t }

/-- 50 Hz. -/
def hz50 : Word := 0x42480000#32

theorem witness_MainsCrossings :
    (∃ s : State, s.dev.tb.refRuns = false) ∧
    (∃ (rising : Bool) (edge : Half) (hz : Word) (s : State), s.dev.tb.refRuns = true ∧ s.dev.power.fieldUp = true ∧
      hzOk hz = true ∧ s.dev.tb.st = .locked ∧ (shortWay ((edge.toNat : Int) - expectedAngle s.dev.tb rising)).natAbs = 8193) ∧
    (∃ (rising : Bool) (edge : Half) (hz : Word) (s : State), s.dev.tb.refRuns = true ∧ s.dev.power.fieldUp = true ∧
      hzOk hz = true ∧ s.dev.tb.st = .locked ∧ (shortWay ((edge.toNat : Int) - expectedAngle s.dev.tb rising)).natAbs = 8192) ∧
    (∃ (rising : Bool) (edge : Half) (hz : Word) (s : State), s.dev.tb.refRuns = true ∧ s.dev.power.fieldUp = true ∧
      hzOk hz = true ∧ s.dev.tb.st = .relocking ∧
      (shortWay ((edge.toNat : Int) - expectedAngle s.dev.tb rising)).natAbs = 63 ∧ s.dev.tb.inPhase = 31) ∧
    (∃ (hz : Word) (s : State), s.dev.tb.refRuns = true ∧ s.dev.power.fieldUp = true ∧ hzOk hz = true ∧
      s.dev.tb.st = .acquiring ∧ s.dev.tb.agree = 3 ∧ agree4 (capList 16 (s.dev.tb.halves ++ [hz])) = true) ∧
    (∃ s : State, s.dev.tb.st = .locked ∧ s.dev.tb.missRun = 1 ∧ bit s.dev.tb.ctrl 5 = true ∧
      s.dev.tb.pfwRaised = false ∧ coreRuns s.dev = true) ∧
    (∃ s : State, s.dev.tb.st = .locked ∧ s.dev.tb.missRun = 2) ∧
    (∃ s : State, s.dev.tb.st ≠ .locked ∧ s.dev.tb.st ≠ .relocking ∧ s.dev.tb.st ≠ .holdover) ∧
    (∃ s : State, s.dev.tb.present = true ∧ s.dev.link.coreLost = false) ∧ (∃ s : State, s.dev.tb.present = false) ∧
    (∃ s : State, s.dev.tb.st = .holdover) :=
  ⟨⟨inTb { refRuns := false }, rfl⟩,
    ⟨true, 8193#16, hz50, inTb { st := .locked }, by decide +kernel⟩,
    ⟨false, 24576#16, hz50, inTb { st := .locked }, by decide +kernel⟩,
    ⟨true, 65473#16, hz50, inTb { st := .relocking, inPhase := 31 }, by decide +kernel⟩,
    ⟨hz50, inTb { st := .acquiring, agree := 3, halves := [hz50, hz50, hz50] }, by decide +kernel⟩,
    ⟨inTb { st := .locked, missRun := 1 }, by decide +kernel⟩, ⟨inTb { st := .locked, missRun := 2 }, by decide +kernel⟩,
    ⟨at0 up, by decide +kernel⟩, ⟨inTb { present := true }, by decide +kernel⟩, ⟨at0 up, rfl⟩, ⟨inTb { st := .holdover }, rfl⟩⟩

/-- An angle event entry with these words, due and started at this stamp. -/
def entry (w0 : Word) (occ start : Stamp) : AngleEntry := ⟨w0, 0#32, 1#32, 0#32, occ, start, false⟩
def entered (e : AngleEntry) : State := inTb { entries := [(5, e)] }

theorem witness_CycleAndAngleEvents :
    (∃ s : State, s.dev.tb.refRuns = false ∧ s.dev.tb.lostByRef = true ∧ 2 ≤ s.dev.tb.mode) ∧
    (∃ s : State, s.dev.tb.refRuns = true ∧ s.dev.tb.entries = [] ∧ s.dev.tb.owed = [] ∧
      nextArrival s.pending (fresh s) = none) ∧
    (∃ (i : Nat) (e : AngleEntry) (a : Half) (s : State), s.dev.tb.refRuns = true ∧
      nextArrival s.pending (fresh s) = none ∧ s.dev.tb.owed = [] ∧ s.dev.tb.entries = [(i, e)] ∧ aeEnabled e = true ∧
      aeAction e = 7 ∧ aeRepeat e = 0 ∧ e.start = e.occ ∧ e.occ = ⟨s.dev.tb.cycle, a⟩ ∧
      s.dev.tb.angle.toNat ≤ a.toNat ∧ s.dev.hif.sluice = true) ∧
    (∃ (i : Fin 1024) (s : State), Tab.find s.dev.tb.entries i.val = none) ∧
    (∃ (i : Fin 1024) (e : AngleEntry) (s : State), s.dev.tb.refRuns = true ∧ nextArrival s.pending (fresh s) = none ∧
      s.dev.tb.owed = [] ∧ s.dev.tb.entries = [(i.val, e)] ∧ aeEnabled e = true ∧ aeAction e = 4 ∧ e.started = false ∧
      e.start.cycle = s.dev.tb.cycle ∧ s.dev.tb.angle.toNat ≤ e.start.angle.toNat ∧ later e.occ e.start = true) ∧
    (∃ (i : Fin 1024) (e : AngleEntry) (s : State), Tab.find s.dev.tb.entries i.val = some e ∧ aeEnabled e = false) ∧
    (∃ s : State, s.pending = [] ∧ s.dev.tb.refRuns = true ∧ dispatchDue s.dev = false ∧ s.dev.tb.angle.toNat = 65534) ∧
    (∃ (v : Word) (s : State), hw v.toNat = s.dev.tb.ofs) ∧ (∃ (v : Word) (s : State), hw v.toNat ≠ s.dev.tb.ofs) :=
  ⟨⟨inTb { refRuns := false, lostByRef := true, mode := 2 }, by decide⟩, ⟨at0 up, by decide⟩,
    ⟨5, entry 0x80070000#32 ⟨0#32, 65535#16⟩ ⟨0#32, 65535#16⟩, 65535#16,
      at0 { (entered (entry 0x80070000#32 ⟨0#32, 65535#16⟩ ⟨0#32, 65535#16⟩)).dev with hif := { up.hif with sluice := true } },
      by decide +kernel⟩,
    ⟨1023, at0 up, by decide⟩,
    ⟨5, entry 0x80040000#32 ⟨0#32, 9#16⟩ ⟨0#32, 0#16⟩, entered (entry 0x80040000#32 ⟨0#32, 9#16⟩ ⟨0#32, 0#16⟩),
      by decide +kernel⟩,
    ⟨5, entry 0x00040000#32 ⟨9#32, 0#16⟩ ⟨9#32, 0#16⟩, entered (entry 0x00040000#32 ⟨9#32, 0#16⟩ ⟨9#32, 0#16⟩),
      by decide +kernel⟩,
    ⟨inTb { angle := 65534#16 }, by decide +kernel⟩, ⟨0#32, at0 up, by decide⟩, ⟨1#32, at0 up, by decide⟩⟩

/-- `up` with this many resources owned, from this number on. -/
def owned (n first : Nat) : Dev := { up with out := { owners := (List.range n).map fun i => (first + i, 3#32) } }
def last : HostCmd := { cmd with target := 1023#32 }
def armed : HostCmd := { last with p0 := 0x80070000#32, p2 := 1#32 }

theorem find_of_mem {α : Type} {k : Nat} {v : α} : ∀ {t : Tab α}, (k, v) ∈ t → (Tab.find t k).isSome = true
  | [], h => by cases h
  | (j, w) :: t, h => by
    unfold Tab.find
    split
    · rfl
    · rename_i n
      rcases List.mem_cons.1 h with e | m
      · cases e; exact absurd rfl n
      · exact find_of_mem m

theorem owned_full {n : Nat} {d : Dev} (h : d.out = (owned n 0x02000000).out) (hn : 1024 ≤ n) : freeEntry d = none := by
  refine List.find?_eq_none.2 fun i m => ?_
  have hm : (0x02000000 + i, 3#32) ∈ d.out.owners := by
    rw [h]
    exact List.mem_map.2 ⟨i, List.mem_range.2 (Nat.lt_of_lt_of_le (List.mem_range.1 m) hn), rfl⟩
  have := find_of_mem hm
  cases hx : ownerOf d (resAngle i) with
  | none => rw [show Tab.find d.out.owners (0x02000000 + i) = none from hx] at this; cases this
  | some _ => simp

theorem witness_AngleEventSet :
    Case 0x0408 (fun c _ => (entryFault c.p0 c.p2).isSome = true) ∧
    Case 0x0408 (fun c s => entryFault c.p0 c.p2 = none ∧ c.target.toNat = 1023 ∧
      ownerOf s.dev (resAngle c.target.toNat) = some 3#32 ∧ (3#32 : Word) ≠ ownHost) ∧
    Case 0x0408 (fun c s => entryFault c.p0 c.p2 = none ∧ c.target.toNat = 1023 ∧
      releaseCheck [resAngle c.target.toNat] ownHost s.dev = none ∧ fld c.p0 19 16 = 0) ∧
    Case 0x0408 (fun c s => entryFault c.p0 c.p2 = none ∧ c.target.toNat = 1023 ∧
      claimCheck [resAngle c.target.toNat] ownHost s.dev = some .full ∧ fld c.p0 19 16 ≠ 0) ∧
    Case 0x0408 (fun c s => entryFault c.p0 c.p2 = none ∧ c.target.toNat = 1023 ∧
      claimCheck [resAngle c.target.toNat] ownHost s.dev = none ∧ fld c.p0 19 16 ≠ 0) ∧
    Case 0x0408 (fun c s => entryFault c.p0 c.p2 = none ∧ c.target = 0xFFFFFFFF#32 ∧ freeEntry s.dev = some 1) ∧
    Case 0x0408 (fun c s => entryFault c.p0 c.p2 = none ∧ c.target = 0xFFFFFFFF#32 ∧ freeEntry s.dev = none) ∧
    Case 0x0408 (fun c _ => entryFault c.p0 c.p2 = none ∧ c.target.toNat = 1024) :=
  ⟨case { cmd with p0 := 0x000F0000#32 } up (by decide +kernel) (by decide +kernel),
    case last (claimAll [resAngle 1023] 3#32 up) (by decide +kernel) (by decide +kernel),
    case last up (by decide +kernel) (by decide +kernel),
    case armed (owned 512 (resAngle 0)) (by decide +kernel) (by decide +kernel),
    case armed up (by decide +kernel) (by decide +kernel),
    case { armed with target := 0xFFFFFFFF#32 } (claimAll [resAngle 0] 3#32 up) (by decide +kernel) (by decide +kernel),
    case { armed with target := 0xFFFFFFFF#32 } (owned 1024 0x02000000) (by decide +kernel)
      ⟨by decide, rfl, owned_full rfl (Nat.le_refl _)⟩,
    case { armed with target := 1024#32 } up (by decide +kernel) (by decide +kernel)⟩

/-- A record with a check that verifies. -/
def recAt (id kind status : Nat) (link : Word) : Rec :=
  withCheck id { value := 0#32, check := 0#16, status := hw status, stamp := ⟨0#32, 0#16⟩, kind := kind, prio := 0
                 wall := 0#32, source := 0#32, cov := 0#32, link := link }

/-- `up` with the analogue point 8191, not commandable, under a limit block, and the binary point 9, commandable. -/
def lim : Limit := ⟨0#32, 0#32, 0#32, 0#32, 0#32, 60#32, 0#32, 0#32, none, 8191⟩
def plain : Rec := recAt 8191 3 0 0x7FFFFFFF#32
def limited : Rec := recAt 8191 3 0 4#32
def lever : Rec := recAt 9 6 128 0x8000000C#32

def withRec (id : Nat) (r : Rec) (d : Dev) : Dev := { d with pe := { d.pe with recs := [(id, r)] } }
def points : Dev := withRec 8191 plain up
def limits (l : Limit) : Dev :=
  { up with pe := { up.pe with recs := [(8191, limited)], subs := [(4, .limit l), (5, .second)] } }
def levers (p : Prio) : Dev := { up with pe := { up.pe with recs := [(9, lever)], prios := [(12, p)] } }

/-- The same record with a check that does not verify. -/
def broken : Rec := { plain with check := plain.check ^^^ 1#16 }

def put1 (id : Nat) (q : Nat) (k : Option Half) : PointOp :=
  { id := id, act := .write F32.one q k 0, stamp := ⟨0#32, 0#16⟩, source := srcHost 0, writer := .host }

theorem witness_LowestLevelWins :
    (∃ (p : Prio) (v : Word), levelValue p 16 = some v ∧ ∀ m, m < 16 → 1 ≤ m → levelValue p m = none) ∧
    (∃ (p : Prio) (v : Word), levelValue p 1 = some v) ∧
    (∃ p : Prio, ∀ m, m < 17 → 1 ≤ m → levelValue p m = none) :=
  ⟨⟨{ slots := [(16, 1#32)] }, 1#32, by decide +kernel⟩, ⟨{ slots := [(1, 1#32)] }, 1#32, by decide +kernel⟩,
    ⟨{}, by decide +kernel⟩⟩

theorem witness_WorstQuality : ∃ a b : Nat, a < 8 ∧ b < 8 ∧ qRank a ≠ qRank b ∧ a = 7 := ⟨7, 0, by decide⟩

theorem recordsOk_reset : recordsOk State.reset.dev := by
  intro id r h
  have h0 : predefRec (id - predefBase) = some r ∧ predefBase ≤ id := by
    simp only [State.reset, recOf, Tab.find] at h
    by_cases hp : isPredef id = true
    · rw [if_pos hp] at h; exact ⟨h, (of_decide_eq_true hp).1⟩
    · rw [if_neg hp] at h; cases h
  obtain ⟨h1, h2⟩ := h0
  simp only [predefRec, Option.map_eq_some_iff] at h1
  obtain ⟨k, -, rfl⟩ := h1
  rw [show predefBase + (id - predefBase) = id by omega]
  have hq : ∀ b : Bool, (hw (5 + 128 * b2n b)).toNat % 16 < 8 := by decide
  simp only [checkOk, withCheck, recQ, hq, decide_true, Bool.true_and, beq_iff_eq]
  rfl

theorem witness_OperationsKeepChecks :
    ∃ s t : State, recordsOk s.dev ∧ (∀ o ∈ s.dev.pe.queue, opOk o = true) ∧ s.dev.pe.queue ≠ [] ∧
      exec (.pointOperation true true) s = .next t :=
  ⟨at0 { State.reset.dev with pe := { queue := [put1 0x4FF000 7 none] } }, _,
    fun id r h => recordsOk_reset id r h, by decide +kernel, by decide, rfl⟩

theorem witness_FailedCheckNotStored :
    (∃ (o : PointOp) (r : Rec) (v : Word) (q : Nat) (k : Half) (p : Nat) (d : Dev) (u : Nat), recOf d o.id = some r ∧
      o.act = .write v q (some k) p ∧ k ≠ pointCheck o.id v q r.kind ∧ u ∈ unitsOfSource d o.id o.source ∧
      retired d u = false) ∧
    (∃ (o : PointOp) (r : Rec) (v : Word) (q : Nat) (k : Half) (p : Nat) (d : Dev), recOf d o.id = some r ∧
      o.act = .write v q (some k) p ∧ q = 7 ∧ k = pointCheck o.id v q r.kind) :=
  ⟨⟨put1 8191 0 (some (pointCheck 8191 F32.one 0 3 ^^^ 1#16)), plain, F32.one, 0, pointCheck 8191 F32.one 0 3 ^^^ 1#16, 0,
      points, (unitsOfSource points 8191 (srcHost 0)).headD 0, by decide +kernel⟩,
    ⟨put1 8191 7 (some (pointCheck 8191 F32.one 7 3)), plain, F32.one, 7, pointCheck 8191 F32.one 7 3, 0, points,
      by decide +kernel⟩⟩

/-- The point engine with one operation queued. -/
def queued (testing p0 p1 : Bool) : State :=
  at0 { up with pe := { up.pe with queue := [put1 8191 0 none], testing := testing, p0 := p0, p1 := p1 } }

theorem witness_PointOperation :
    (∃ (o : PointOp) (rest : List PointOp) (s : State), s.dev.pe.queue = o :: rest ∧ s.dev.pe.testing = true) ∧
    (∀ b c : Bool, ∃ (o : PointOp) (rest : List PointOp) (s : State), s.dev.pe.queue = o :: rest ∧
      s.dev.pe.testing = false ∧ s.dev.pe.p0 = b ∧ s.dev.pe.p1 = c) :=
  ⟨⟨_, [], queued true true true, rfl, rfl⟩, fun b c => ⟨_, [], queued false b c, rfl, rfl, rfl, rfl⟩⟩

/-- A trend log of point 8191 with this mode. -/
def trend0 (mode : Nat) : Trend :=
  { point := 8191, cq := 1, stopWhenFull := false, mode := mode, period := 1, phase := 0, capacity := 16, notify := 0 }

def logging (mode : Nat) : Dev := { points with pe := { points.pe with trends := [(1048575, trend0 mode)] } }

theorem witness_PointTimers :
    (∃ (id : Nat) (r : Rec) (s : State), recOf s.dev id = some r ∧ engineReady s id ∧ commandable r = true ∧
      lockActive (prioOf s.dev r) = true) ∧
    (∃ (id : Nat) (r : Rec) (s : State), recOf s.dev id = some r ∧ lockActive (prioOf s.dev r) = false) ∧
    (∃ (id : Nat) (r : Rec) (l : Limit) (s : State), recOf s.dev id = some r ∧ engineReady s id ∧
      limitOf s.dev (limitRef s.dev r) = some l ∧ l.staleAfter ≠ 0#32 ∧ checkOk id r = true ∧ recQ r ≠ 1 ∧
      stageHeld s.dev id = false ∧ l.pendTo = none) ∧
    (∃ (id : Nat) (r : Rec) (s : State), recOf s.dev id = some r ∧ recQ r = 1) ∧
    (∃ (id : Nat) (r : Rec) (s : State), recOf s.dev id = some r ∧ writeWaits s.dev id = true) ∧
    (∃ (id : Nat) (r : Rec) (l : Limit) (s : State), recOf s.dev id = some r ∧ pipesServe s.dev = true ∧
      limitOf s.dev (limitRef s.dev r) = some l ∧ l.pendTo = some 1) ∧
    (∃ s : State, s.dev.pe.p0 = s.dev.pe.p1) ∧
    (∃ s : State, s.dev.pe.p0 ≠ s.dev.pe.p1 ∧ Tab.find s.dev.integ.tests unitPipes = none) ∧
    (∃ (n : Fin 32) (s : State), eventRoom s.dev n.val = false) ∧
    (∃ (p : Fin 24) (s : State), (portOf s.dev p.val).isOpen = true ∧ (portOf s.dev p.val).held = false ∧
      (portOf s.dev p.val).qTx = false) ∧
    (∃ (p : Fin 24) (s : State), (portOf s.dev p.val).isOpen = false) ∧
    (∀ b : Bool, ∃ (log id : Nat) (r : Rec) (t : Trend) (s : State), recOf s.dev id = some r ∧
      Tab.find s.dev.pe.trends log = some t ∧ trendDue t (now s.dev).cycle.toNat = b ∧ t.point = id ∧
      checkOk id r = true ∧ coreRuns s.dev = true ∧ (s.dev.pe.p0 || s.dev.pe.p1) = true) :=
  ⟨⟨9, lever, at0 (levers { slots := [(6, 0xC0000000#32)] }), by unfold engineReady; decide +kernel⟩,
    ⟨9, lever, at0 (levers {}), by decide +kernel⟩,
    ⟨8191, limited, lim, at0 (limits lim), by unfold engineReady; decide +kernel⟩,
    ⟨8191, recAt 8191 3 1 0x7FFFFFFF#32, at0 (withRec 8191 (recAt 8191 3 1 0x7FFFFFFF#32) up), by decide +kernel⟩,
    ⟨8191, limited, at0 { limits lim with pe := { (limits lim).pe with queue := [put1 8191 0 none] } }, by decide +kernel⟩,
    ⟨8191, limited, { lim with pendTo := some 1 }, at0 (limits { lim with pendTo := some 1 }), by decide +kernel⟩,
    ⟨at0 up, rfl⟩, ⟨queued false true false, by decide +kernel⟩, ⟨31, at0 up, by decide +kernel⟩,
    ⟨23, at0 (setPort 23 { isOpen := true } up), by decide +kernel⟩, ⟨23, at0 up, by decide +kernel⟩,
    fun b => ⟨1048575, 8191, plain, trend0 (2 - b2n b), at0 (logging (2 - b2n b)), by revert b; decide +kernel⟩⟩

/-- A command on point 8191, one on point 9. -/
def on8191 : HostCmd := { cmd with target := 8191#32 }
def on9 : HostCmd := { cmd with target := 9#32 }

theorem witness_PointReads :
    Case 0x0102 (fun c s => recOf s.dev c.target.toNat = none) ∧
    Case 0x0102 (fun c s => recOf s.dev c.target.toNat = some plain ∧ checkOk c.target.toNat plain = true ∧
      (trim c).bufLen = 0) ∧
    Case 0x0102 (fun c s => recOf s.dev c.target.toNat = some plain ∧ checkOk c.target.toNat plain = true ∧
      (trim c).bufLen = 32) ∧
    Case 0x0102 (fun c s => recOf s.dev c.target.toNat = some plain ∧ checkOk c.target.toNat plain = true ∧
      (trim c).bufLen = 31) ∧
    Case 0x0102 (fun c s => recOf s.dev c.target.toNat = some broken ∧ checkOk c.target.toNat broken = false) ∧
    Case 0x0105 (fun c s => c.count.toNat = 1 ∧ 4 * c.count.toNat ≤ (trim c).bufLen ∧
      canWrite s.dev (addr64 c.p0 c.p1) (32 * c.count.toNat) = true) ∧
    Case 0x0105 (fun c s => c.count.toNat = 65536 ∧ 4 * c.count.toNat ≤ (trim c).bufLen ∧
      canWrite s.dev (addr64 c.p0 c.p1) (32 * c.count.toNat) = true) ∧
    Case 0x0105 (fun c _ => c.count.toNat = 0) ∧ Case 0x0105 (fun c _ => c.count.toNat = 65537) :=
  ⟨case on8191 up (by decide +kernel) (by decide +kernel), case on8191 points (by decide +kernel) (by decide +kernel),
    case (room on8191 32) points (by decide +kernel) (by decide +kernel),
    case (room on8191 31) points (by decide +kernel) (by decide +kernel),
    case on8191 (withRec 8191 broken up) (by decide +kernel) (by decide +kernel),
    case (room { cmd with count := 1#32 } 4) up (by decide +kernel) (by decide +kernel),
    case (room { cmd with count := 65536#32 } 262144) up (by decide +kernel) (by decide +kernel),
    case cmd up (by decide +kernel) (by decide +kernel),
    case { cmd with count := 65537#32 } up (by decide +kernel) (by decide +kernel)⟩

theorem witness_PointWrites :
    Case 0x0103 (fun c s => recOf s.dev c.target.toNat = some plain ∧ stageOf s.dev c.target.toNat = none ∧
      isPredef c.target.toNat = false ∧ guardedOf plain = false ∧ commandable plain = false ∧ outOfService plain = false ∧
      valueFits plain.kind (statesOf plain) c.p0 = true ∧ envelopeOf s.dev c.target.toNat = none) ∧
    (∀ l ∈ [1, 16], Case 0x0103 (fun c s => recOf s.dev c.target.toNat = some lever ∧ stageOf s.dev c.target.toNat = none ∧
      isPredef c.target.toNat = false ∧ guardedOf lever = false ∧ commandable lever = true ∧
      valueFits lever.kind (statesOf lever) c.p0 = true ∧ envelopeOf s.dev c.target.toNat = none ∧ fld c.p1 4 0 = l ∧ l ≠ 6)) ∧
    Case 0x0103 (fun c s => recOf s.dev c.target.toNat = some plain ∧ stageOf s.dev c.target.toNat = none ∧
      isPredef c.target.toNat = false ∧ guardedOf plain = false ∧ valueFits plain.kind (statesOf plain) c.p0 = false) ∧
    (∀ l ∈ [0, 1, 6, 16, 17], Case 0x0104 (fun c s => recOf s.dev c.target.toNat = some lever ∧
      stageOf s.dev c.target.toNat = none ∧ isPredef c.target.toNat = false ∧ guardedOf lever = false ∧
      commandable lever = true ∧ fld c.p1 4 0 = l)) ∧
    Case 0x0104 (fun c s => recOf s.dev c.target.toNat = some plain ∧ stageOf s.dev c.target.toNat = none ∧
      isPredef c.target.toNat = false ∧ guardedOf plain = false ∧ commandable plain = false) :=
  ⟨case { on8191 with p0 := F32.one } points (by decide +kernel) (by decide +kernel),
    case_all (fun l => { on9 with p0 := F32.one, p1 := wd l }) (levers {}) (by decide +kernel),
    case { on8191 with p0 := 0x7F800000#32 } points (by decide +kernel) (by decide +kernel),
    case_all (fun l => { on9 with p1 := wd l }) (levers {}) (by decide +kernel),
    case on8191 points (by decide +kernel) (by decide +kernel)⟩

/-- `WriteReady` at level 1, evaluated. -/
theorem writeReady {id k : Nat} {r : Rec} {s : State}
    (h : (recOf s.dev id = some r ∧ checkOk id r = true ∧ commandable r = true ∧ guardedOf r = false ∧
      outOfService r = false ∧ hasMinTimes (prioOf s.dev r) = false) ∧ (∀ o ∈ s.dev.pe.queue, o.id ≠ id) ∧
      (∀ x ∈ s.dev.pe.deliveries, x.id ≠ id) ∧ stageState s.dev k = 0 ∧ s.dev.belay.owner ≠ 0#16 ∧
      envelopeOf s.dev id = none) : WriteReady id k 1 r s :=
  ⟨h.1.1, h.1.2.1, h.1.2.2.1, h.1.2.2.2.1, h.1.2.2.2.2.1, h.1.2.2.2.2.2, by decide, by decide, by decide,
    fun m a b => by omega, h.2.1, h.2.2.1, h.2.2.2.1, h.2.2.2.2.1, h.2.2.2.2.2⟩

/-- Stage `k` is NORMAL under an owner. -/
def normal (k : Nat) (d : Dev) : Dev := { d with belay := { owner := 1#16, ownerUnit := 1, stages := [(k, 0)] } }
def ao15 : Dev := normal 63 (setAo 15 { cfg := 1#32 } up)
def tg15 (cfg : Word) (held : Option Word) : Dev := normal 79 (setTg 15 { cfg := cfg, held := held } up)
def fan7 : Dev := normal 87 (setFan 7 { cfg := 3#32, duty := 1 } up)
def coil47 : Nat := predefBase + coilPoint 47 0
def coilOn : Dev := normal 47 (setChan 47 { cfg := 1#32 } { up with coil := { vdrvGood := true } })

/-- The record that a predefined point has before a write. -/
def predef (id : Nat) : Rec := (predefRec (id - predefBase)).getD (recAt id 3 0 0#32)

/-- A command that writes 1.0 at level 1 to output `n`. -/
def toOut (n : Nat) : HostCmd := { cmd with target := wd n, p0 := F32.one, p1 := 1#32 }

theorem witness_OutputCommands :
    Case 0x0506 (fun c s => c.target.toNat = 15 ∧ fld c.p1 4 0 = 1 ∧ WriteReady (aoId 15) 63 1 (predef (aoId 15)) s ∧
      valueFits (predef (aoId 15)).kind (statesOf (predef (aoId 15))) c.p0 = true ∧ F32.finite c.p0 = true ∧
      bit (aoOf s.dev 15).cfg 0 = true) ∧
    Case 0x0506 (fun c _ => c.target.toNat = 16) ∧
    Case 0x0507 (fun c s => c.target.toNat = 15 ∧ fld c.p1 4 0 = 1 ∧ WriteReady (tgId 15) 79 1 (predef (tgId 15)) s ∧
      valueFits (predef (tgId 15)).kind (statesOf (predef (tgId 15))) c.p0 = true ∧ F32.finite c.p0 = true ∧
      bit (tgOf s.dev 15).cfg 0 = true) ∧
    Case 0x0507 (fun c _ => c.target.toNat = 16) ∧
    Case 0x0508 (fun c s => c.target.toNat = 7 ∧ fld c.p1 4 0 = 1 ∧ WriteReady (fanId 7) 87 1 (predef (fanId 7)) s ∧
      valueFits (predef (fanId 7)).kind (statesOf (predef (fanId 7))) c.p0 = true ∧ F32.finite c.p0 = true ∧
      bit (fanOf s.dev 7).cfg 0 = true) ∧
    Case 0x0508 (fun c _ => c.target.toNat = 8) ∧
    Case 0x0504 (fun c s => c.target.toNat = 47 ∧ fld c.p1 4 0 = 1 ∧ WriteReady coil47 47 1 (predef coil47) s ∧
      valueFits (predef coil47).kind (statesOf (predef coil47)) c.p0 = true ∧ F32.finite c.p0 = true ∧
      F32.gt (limitCmd c.p0) F32.zero = true ∧ chEnabled (chanOf s.dev 47) = true ∧ (chanOf s.dev 47).st = 0 ∧
      (chanOf s.dev 47).armed = false ∧ chAngle (chanOf s.dev 47) = false ∧ s.dev.coil.vdrvGood = true ∧
      overLimit s.dev (chanOf s.dev 47) = false ∧ pullingIn s.dev 7 = none) ∧
    Case 0x0504 (fun c _ => c.target.toNat = 48) :=
  ⟨case (toOut 15) ao15 (by decide +kernel)
      ⟨by decide, by decide, writeReady (by decide +kernel), by decide +kernel, by decide, by decide +kernel⟩,
    case (toOut 16) up (by decide +kernel) (by decide),
    case (toOut 15) (tg15 1#32 none) (by decide +kernel)
      ⟨by decide, by decide, writeReady (by decide +kernel), by decide +kernel, by decide, by decide +kernel⟩,
    case (toOut 16) up (by decide +kernel) (by decide),
    case (toOut 7) fan7 (by decide +kernel)
      ⟨by decide, by decide, writeReady (by decide +kernel), by decide +kernel, by decide, by decide +kernel⟩,
    case (toOut 8) up (by decide +kernel) (by decide),
    case (toOut 47) coilOn (by decide +kernel)
      ⟨by decide, by decide, writeReady (by decide +kernel), by decide +kernel, by decide, by decide +kernel⟩,
    case (toOut 48) up (by decide +kernel) (by decide)⟩

/-- A COV subscription of point 8191 for ring 1, and the same entry held. -/
def subscribe : HostCmd := { on8191 with p0 := 1#32, p1 := 1#32 }
def subbed : Dev :=
  { points with pe := { points.pe with
    subs := [(0, .sub ⟨1, 8191, 1#32, false, 0, 0#32, 0, 0, 0, false, 0⟩)], subHead := [(8191, 0)] } }

/-- POINT_LIMITS with a high limit of 1 below a low limit of 2, and with no limit at all. -/
def crossed : HostCmd := withWords on8191 [F32.one, F32.ofNat 2, 0#32, 0#32, 3#32, 0#32, 0#32, 0#32]
def unlimited : HostCmd := withWords on8191 (List.replicate 8 0#32)

def alarm0 : Alarm := ⟨1, 8191, 0, 1, 0#32, 0, 0#16, 3, ⟨5#32, 6#16⟩, 0, true, false, none, []⟩

theorem witness_PointSubscriptions :
    Case 0x0106 (fun c s => recOf s.dev c.target.toNat = some plain ∧ (targetFault (fld c.p0 2 0) c.p1 s.dev).isSome = true) ∧
    Case 0x0106 (fun c s => recOf s.dev c.target.toNat = some plain ∧ targetFault (fld c.p0 2 0) c.p1 s.dev = none ∧
      checkOk c.target.toNat plain = true ∧ (findSub s.dev (fld c.p0 2 0) c.target.toNat c.p1).isSome = true) ∧
    Case 0x0106 (fun c s => recOf s.dev c.target.toNat = some plain ∧ targetFault (fld c.p0 2 0) c.p1 s.dev = none ∧
      checkOk c.target.toNat plain = true ∧ findSub s.dev (fld c.p0 2 0) c.target.toNat c.p1 = none ∧
      lowFree s.dev.pe.subs 0 < subCap s.dev) ∧
    Case 0x0107 (fun c s => recOf s.dev c.target.toNat = some plain ∧
      findSub s.dev (fld c.p0 2 0) c.target.toNat c.p1 = some 0) ∧
    Case 0x0107 (fun c s => recOf s.dev c.target.toNat = some plain ∧
      findSub s.dev (fld c.p0 2 0) c.target.toNat c.p1 = none) ∧
    Case 0x0108 (fun c s => recOf s.dev c.target.toNat = some limited ∧ fld c.p0 1 0 = 0 ∧ (trim c).bufLen = 32 ∧
      limitFault limited.kind (trim c).buf = some 0) ∧
    Case 0x0108 (fun c s => recOf s.dev c.target.toNat = some limited ∧ fld c.p0 1 0 = 0 ∧ (trim c).bufLen = 32 ∧
      limitFault limited.kind (trim c).buf = none ∧ limitOf s.dev (limitRef s.dev limited) = some lim ∧
      stateDisabled (limitOfBuf c.target.toNat (limitState lim) (trim c).buf) = false) ∧
    Case 0x0108 (fun c s => recOf s.dev c.target.toNat = some plain ∧ fld c.p0 1 0 = 0 ∧ (trim c).bufLen = 32 ∧
      limitFault plain.kind (trim c).buf = none ∧ limitOf s.dev (limitRef s.dev plain) = none ∧
      (takePair (fresh s)).map Prod.fst = some 0) ∧
    Case 0x0108 (fun c s => recOf s.dev c.target.toNat = some limited ∧ fld c.p0 1 0 = 1 ∧
      limitOf s.dev (limitRef s.dev limited) = some lim) ∧
    Case 0x0108 (fun c s => recOf s.dev c.target.toNat = some plain ∧ fld c.p0 1 0 = 1 ∧
      limitOf s.dev (limitRef s.dev plain) = none) ∧
    Case 0x0108 (fun c s => recOf s.dev c.target.toNat = some limited ∧ fld c.p0 1 0 = 2 ∧
      (ackAlarm c.target.toNat (fld c.p1 3 0) ⟨c.p2, hw c.p3.toNat⟩ (fresh s)).isSome = true) :=
  ⟨case { subscribe with p1 := 32#32 } points (by decide +kernel) (by decide +kernel),
    case subscribe subbed (by decide +kernel) (by decide +kernel), case subscribe points (by decide +kernel) (by decide +kernel),
    case subscribe subbed (by decide +kernel) (by decide +kernel), case subscribe points (by decide +kernel) (by decide +kernel),
    case crossed (limits lim) (by decide +kernel) (by decide +kernel),
    case unlimited (limits lim) (by decide +kernel) (by decide +kernel),
    case unlimited points (by decide +kernel) (by decide +kernel),
    case { on8191 with p0 := 1#32 } (limits lim) (by decide +kernel) (by decide +kernel),
    case { on8191 with p0 := 1#32 } points (by decide +kernel) (by decide +kernel),
    case { on8191 with p0 := 2#32, p1 := 1#32, p2 := 5#32, p3 := 6#32 }
      { limits lim with pe := { (limits lim).pe with alarms := [alarm0] } } (by decide +kernel) (by decide +kernel)⟩

/-- POINT_DEFINE of a value of this kind; TREND_DEFINE of a log of 16 samples of point 8191 on its changes. -/
def define (kind : Nat) : HostCmd := withWords on8191 [wd (kind + 2048), 0#32, 0#32, 0#32, F32.one, 0x7FFFFFFF#32, 0#32, 0#32]
def defineOut : HostCmd := withWords on8191 [0x103#32, 0#32, F32.one, 0#32, 0#32, 0x7FFFFFFF#32, 0#32, 0#32]
def onLog : HostCmd := { cmd with target := 1048575#32 }
def newLog : HostCmd := withWords onLog [8191#32, 0xA#32, 1#32, 0#32, 16#32, 0#32, 0#32, 0#32]

/-- The log has room, on either memory. -/
theorem trend_room {d : Dev} (hp : d.pe.plan = some plan0) (hr : d.integ.remaps = []) : 65536 ≤ trendBytes d := by
  have h : ((d.pe.plan.map regionMib).getD []).sum ≤ 128 := by rw [hp]; decide +kernel
  have : 896 ≤ usableMib := by unfold usableMib; split <;> decide
  simp only [trendBytes, hr, List.length_nil]
  omega

theorem witness_PointAndTrendDefinitions :
    Case 0x0101 (fun c _ => (trim c).bufLen = 31) ∧
    Case 0x0101 (fun c s => 32 ≤ (trim c).bufLen ∧ planN s.dev = c.target.toNat ∧ c.target.toNat < 0x500000 ∧
      isPredef c.target.toNat = false) ∧
    Case 0x0101 (fun c s => (trim c).bufLen = 32 ∧ c.target.toNat + 1 = planN s.dev ∧ c.target.toNat < 0x500000 ∧
      isPredef c.target.toNat = false ∧ recOf s.dev c.target.toNat = none ∧
      definitionFault (fun o => wordAt (trim c).buf o) = some 0) ∧
    (∀ x ∈ [(define 3, false), (defineOut, true)], Case 0x0101 (fun c s => (trim c).bufLen = 32 ∧
      c.target.toNat + 1 = planN s.dev ∧ c.target.toNat < 0x500000 ∧
      isPredef c.target.toNat = false ∧ recOf s.dev c.target.toNat = none ∧
      definitionFault (fun o => wordAt (trim c).buf o) = none ∧ bit (wordAt (trim c).buf 0) 8 = x.2 ∧
      kindAlways (fld (wordAt (trim c).buf 0) 7 0) = false ∧ s.dev.pe.queue = [] ∧
      prioTaken s.dev < ((s.dev.pe.plan.map (·.commandable)).getD 0))) ∧
    Case 0x0A01 (fun c _ => c.target.toNat = 1048576) ∧
    Case 0x0A01 (fun c s => c.target.toNat = 1048575 ∧ (trim c).bufLen = 32 ∧ wordAt (trim c).buf 0 = 0x7FFFFF#32 ∧
      Tab.find s.dev.pe.trends c.target.toNat = some (trend0 1)) ∧
    Case 0x0A01 (fun c _ => c.target.toNat = 1048575 ∧ (trim c).bufLen = 32 ∧ wordAt (trim c).buf 0 ≠ 0x7FFFFF#32 ∧
      trendFault (trim c).buf = some 4) ∧
    Case 0x0A01 (fun c s => c.target.toNat = 1048575 ∧ (trim c).bufLen = 32 ∧ wordAt (trim c).buf 0 ≠ 0x7FFFFF#32 ∧
      trendFault (trim c).buf = none ∧ (recOf s.dev (wordAt (trim c).buf 0).toNat).isSome = true ∧
      trendCov (trendOfBuf (trim c).buf) = true ∧
      tooFast ((Tab.put s.dev.pe.trends c.target.toNat (trendOfBuf (trim c).buf)).map Prod.snd) = false ∧
      16 * (((Tab.put s.dev.pe.trends c.target.toNat (trendOfBuf (trim c).buf)).map Prod.snd).map (·.capacity)).sum ≤
        256 ∧ 65536 ≤ trendBytes s.dev ∧ subsFree (dropTrendSubs c.target.toNat (fresh s)) ≠ 0) ∧
    Case 0x0A02 (fun c s => c.target.toNat = 1048575 ∧ Tab.find s.dev.pe.trends c.target.toNat = none) ∧
    Case 0x0A02 (fun c s => c.target.toNat = 1048575 ∧ Tab.find s.dev.pe.trends c.target.toNat = some (trend0 1) ∧
      16 * c.count.toNat = (trim c).bufLen) :=
  ⟨case (room on8191 31) up (by decide +kernel) (by decide +kernel),
    case { define 3 with target := 8192#32 } up (by decide +kernel) (by decide +kernel),
    case (define 0) up (by decide +kernel) (by decide +kernel), case_all (fun x => x.1) up (by decide +kernel),
    case { cmd with target := 1048576#32 } up (by decide +kernel) (by decide +kernel),
    case (withWords onLog (0x7FFFFF#32 :: List.replicate 7 0#32)) (logging 1) (by decide +kernel) (by decide +kernel),
    case (withWords onLog (List.replicate 8 0#32)) up (by decide +kernel) (by decide +kernel),
    case newLog points (by decide +kernel) ⟨by decide, by decide +kernel, by decide +kernel, by decide +kernel,
      by decide +kernel, by decide +kernel, by decide +kernel, by decide +kernel, trend_room rfl rfl, by decide +kernel⟩,
    case onLog up (by decide +kernel) (by decide +kernel),
    case (room { onLog with count := 2#32 } 32) (logging 1) (by decide +kernel) (by decide +kernel)⟩

/-- The words with the CRC-32C of the whole, taken with zeros in its place, at word `k`. -/
def sealedWords (k : Nat) (ws : List Word) : List Word := ws.set k (crc32c (wordsBytes (ws.set k 0#32)))

/-- A loop image of one block without inputs. -/
def image0 : List Word :=
  sealedWords 15 ([0x0A010001#32, 1#32, 0#32, 0#32] ++ List.replicate 12 0#32 ++
    [0x00000052#32, 0#32, 0xC0000000#32, 0xC0000000#32, 0xC0000000#32, 0xC0000000#32, 0#32, 0#32])
def prog0 : Prog := progOf (wordsBytes image0) false
def roped0 : Prog := { prog0 with roped := true }
def loop0 : Loop := { st := 2, prog := prog0, due := some ⟨0#32, 0#16⟩ }

def ref63 : LoopRef := ⟨false, 63⟩
def looped (l : Loop) : Dev := putLoop ref63 l up
def hotLoop (l : Loop) : State := at0 { looped l with th := { level := 6 }, tb := { cycle := 1#32 } }

theorem witness_LoopTicks :
    (∃ (i : Nat) (l : Loop) (s : State), loopOf s.dev ⟨false, i⟩ = some l ∧ l.st = 2 ∧ l.stopping = false ∧
      periodicDue l.prog (now s.dev).cycle.toNat = true ∧ hotLevel s.dev = false ∧ l.due.isSome = true) ∧
    (∀ b : Bool, ∃ (i : Nat) (l : Loop) (s : State), loopOf s.dev ⟨false, i⟩ = some l ∧ l.st = 2 ∧ l.stopping = false ∧
      periodicDue l.prog (now s.dev).cycle.toNat = true ∧ hotLevel s.dev = true ∧ l.prog.roped = b ∧ l.woken = false ∧
      tickNumber l.prog (now s.dev).cycle.toNat % 2 ≠ 0) ∧
    (∃ (i : Nat) (l : Loop) (s : State), loopOf s.dev ⟨false, i⟩ = some l ∧ loopActive l = false ∧ l.due = none) ∧
    (∃ (r : LoopRef) (e : Fin 4) (l : Loop) (s : State), loopOf s.dev r = some l ∧ l.due = some ⟨0#32, 0#16⟩ ∧
      mayStart s.dev l = true ∧ engineTakes s.dev l.prog e.val = true ∧ pipesServe s.dev = true ∧
      outranked r l e.val s.dev = false ∧ l.late = false ∧ r.fast = false) :=
  ⟨⟨63, loop0, at0 (looped loop0), by decide +kernel⟩,
    fun b => ⟨63, { loop0 with prog := if b then roped0 else prog0 }, hotLoop { loop0 with prog := if b then roped0 else prog0 },
      by revert b; decide +kernel⟩,
    ⟨63, blankLoop prog0, at0 (looped (blankLoop prog0)), by decide +kernel⟩,
    ⟨ref63, 3, loop0, at0 (looped loop0), by decide +kernel⟩⟩

def part (done own missing : Bool) : Part := { copy := {}, writes := [], done := done, own := own, missing := missing }
def computing (p : Prog) (a b : Option Part) : Loop := { st := 2, prog := p, running := some ⟨⟨0#32, 0#16⟩, 0, a, b⟩ }

/-- A loop that computes with these parts on engine 0 of each cluster. -/
def computed (p : Prog) (a b : Option Part) : State :=
  at0 { looped (computing p a b) with
    loops := { (looped (computing p a b)).loops with busy := [(engineCode .a 0, ref63), (engineCode .b 0, ref63)] } }

/-- The loop computes with these parts, and is neither being stopped nor swapped. -/
def Runs (s : State) (r : LoopRef) (l : Loop) (a b : Option Part) : Prop :=
  loopOf s.dev r = some l ∧ l.running = some ⟨⟨0#32, 0#16⟩, 0, a, b⟩ ∧ l.stopping = false ∧ l.swapDue = false

theorem runs (p : Prog) (a b : Option Part) : Runs (computed p a b) ref63 (computing p a b) a b := ⟨rfl, rfl, rfl, rfl⟩

theorem none_later {o : Option Stamp} {v : Stamp} (h : (o.all fun d => !later v d) = true) :
    ∀ due, o = some due → later v due = false := by
  rintro due rfl
  simpa using h

theorem witness_LoopResults :
    (∃ (r : LoopRef) (l : Loop) (s : State), Runs s r l (some (part false false false)) none ∧
      atWork s.dev r .a 0 = true ∧ l.prog.roped = false ∧ shadow s.dev l.prog = false ∧
      partOf ⟨⟨0#32, 0#16⟩, 0, some (part false false false), none⟩ .b = none) ∧
    (∃ (r : LoopRef) (l : Loop) (s : State), Runs s r l (some (part false false false)) (some (part false false false)) ∧
      atWork s.dev r .a 0 = true ∧ l.prog.roped = true) ∧
    (∃ (r : LoopRef) (l : Loop) (v : Stamp) (s : State), Runs s r l (some (part true true false)) (some (part true false false)) ∧
      (∀ k due, peerDue s.dev r k = some due → later v due = false) ∧ NoneDue false v s ∧
      ownPart s.dev (part true true false) (part true false false) = some .a ∧ shadow s.dev l.prog = false) ∧
    (∃ (r : LoopRef) (l : Loop) (due : Stamp) (s : State), Runs s r l (some (part true true false)) (some (part false false false)) ∧
      peerDue s.dev r .a = some due ∧ s.pending.any (peerBeaten r due) = false ∧ NoneDue true due s ∧
      shadow s.dev l.prog = false ∧ peerDue s.dev r .b = none) :=
  ⟨⟨ref63, _, _, runs prog0 _ _, by decide +kernel⟩, ⟨ref63, _, _, runs roped0 _ _, by decide +kernel⟩,
    ⟨ref63, _, ⟨0#32, 9#16⟩, _, runs roped0 _ _, fun k => none_later (by cases k <;> decide +kernel), by unfold NoneDue; decide +kernel,
      by decide +kernel⟩,
    ⟨ref63, _, ⟨0#32, 3277#16⟩, _, runs roped0 _ _, by decide +kernel, by decide, by unfold NoneDue; decide +kernel,
      by decide +kernel⟩⟩

def onLoop : HostCmd := { cmd with target := 63#32 }
def onFast : HostCmd := { cmd with target := 0x8000003F#32 }

/-- One change of PARAM0 of block 0. -/
def tune1 : HostCmd := withWords { onLoop with count := 1#32 } [0x00000100#32, 5#32]

/-- A program that reads a schedule that is not there, and a fast one. -/
def lacking : Prog := { prog0 with blocks := [⟨0x53, false, 0, 0, false, 0, [], 5#32, 0#32, []⟩] }
def fast0 : Prog := { prog0 with fast := true, period := 2048 }
def fastDev : Dev := { up with loops := { fast := [(63, blankLoop fast0)] } }
def busyLoop : Loop := computing prog0 (some (part false false false)) none

theorem witness_LoopCommands :
    Case 0x0201 (fun c s => (loopTarget true c.target s.dev).1 = some ref63 ∧
      ((loopOf s.dev ref63).map (·.st)).getD 3 = 3 ∧ checkImage ref63 (trim c) = .inl prog0 ∧
      loopFits (progSize prog0) (((loopOf s.dev ref63).map fun l => progSize l.prog).getD 0) s.dev = true) ∧
    Case 0x0201 (fun c s => (loopTarget true c.target s.dev).1 = some ref63 ∧ loopOf s.dev ref63 = none ∧
      checkImage ref63 (trim c) = .inr (badField 0x28)) ∧
    (∀ op ∈ [0x0202, 0x0203, 0x0205, 0x0206], Case op (fun c s => (loopTarget false c.target s.dev).1 = some ref63 ∧
      loopOf s.dev ref63 = none)) ∧
    Case 0x0202 (fun c s => (loopTarget false c.target s.dev).1 = some ref63 ∧ loopOf s.dev ref63 = some (blankLoop prog0) ∧
      (blankLoop prog0).st = 1 ∧ (startFault prog0 s.dev).or (admission true ref63 prog0 (0, 1) s.dev) = none) ∧
    Case 0x0202 (fun c s => (loopTarget false c.target s.dev).1 = some ref63 ∧ loopOf s.dev ref63 = some (blankLoop lacking) ∧
      ((startFault lacking s.dev).or (admission true ref63 lacking (0, 1) s.dev)).isSome = true) ∧
    Case 0x0202 (fun c s => (loopTarget false c.target s.dev).1 = some ⟨true, 63⟩ ∧
      loopOf s.dev ⟨true, 63⟩ = some (blankLoop fast0) ∧
      (startFault fast0 s.dev).or (admission true ⟨true, 63⟩ fast0 (0, 1) s.dev) = none ∧
      (joinGroup 63 fast0 (fresh s)).isSome = true) ∧
    (∀ op ∈ [0x0202, 0x0203], Case op (fun c s => (loopTarget false c.target s.dev).1 = some ref63 ∧
      loopOf s.dev ref63 = some loop0 ∧ loop0.st ≠ 1 ∧ loop0.st ≠ 3 ∧ loopActive loop0 = true ∧ evalOpen loop0 = false)) ∧
    Case 0x0203 (fun c s => (loopTarget false c.target s.dev).1 = some ref63 ∧ loopOf s.dev ref63 = some busyLoop ∧
      loopActive busyLoop = true ∧ evalOpen busyLoop = true) ∧
    (∀ op ∈ [0x0203, 0x0206], Case op (fun c s => (loopTarget false c.target s.dev).1 = some ref63 ∧
      loopOf s.dev ref63 = some (blankLoop prog0) ∧ loopActive (blankLoop prog0) = false)) ∧
    Case 0x0204 (fun c s => (loopTarget false c.target s.dev).1 = some ref63 ∧ loopOf s.dev ref63 = some loop0 ∧
      (trim c).bufLen = 320) ∧
    (∀ l ∈ [loop0, blankLoop prog0], Case 0x0205 (fun c s => (loopTarget false c.target s.dev).1 = some ref63 ∧
      loopOf s.dev ref63 = some l ∧
      c.count.toNat = 1 ∧ (trim c).bufLen = 8 ∧ ∃ p, tuneAll (trim c).buf c.count.toNat 0 (l.tuned.getD l.prog) = .inl p ∧
        stageChanged (l.tuned.getD l.prog) p = false ∧ tunedFault (trim c).buf c.count.toNat p = none ∧ p ≠ l.prog)) ∧
    Case 0x0206 (fun c s => (loopTarget false c.target s.dev).1 = some ref63 ∧ loopOf s.dev ref63 = some loop0 ∧
      loopActive loop0 = true ∧ loop0.st ≠ 5 ∧ checkImage ref63 (trim c) = .inl prog0 ∧
      loopFits (progSize prog0) 0 s.dev = true ∧ guardedWrites prog0 s.dev = false ∧
      admission false ref63 prog0 (reservedRate prog0) s.dev = none) :=
  ⟨case (withWords onLoop image0) up (by decide +kernel) (by decide +kernel),
    case (room onLoop 63) up (by decide +kernel) (by decide +kernel),
    fun op h => ⟨onLoop, host op onLoop up, ready_of (by revert op; decide +kernel), rfl, rfl⟩,
    case onLoop (looped (blankLoop prog0)) (by decide +kernel) (by decide +kernel),
    case onLoop (looped (blankLoop lacking)) (by decide +kernel) (by decide +kernel),
    case onFast fastDev (by decide +kernel) (by decide +kernel),
    fun op h => ⟨onLoop, host op onLoop (looped loop0), ready_of (by revert op; decide +kernel), rfl, rfl, by decide +kernel⟩,
    case onLoop (looped busyLoop) (by decide +kernel) (by decide +kernel),
    fun op h => ⟨onLoop, host op onLoop (looped (blankLoop prog0)), ready_of (by revert op; decide +kernel), rfl, rfl, rfl⟩,
    case (room onLoop 320) (looped loop0) (by decide +kernel) (by decide +kernel),
    fun l h => ⟨tune1, host 0x0205 tune1 (looped l), ready_of (by revert l; decide +kernel), rfl, rfl, rfl, by decide +kernel,
      { prog0 with blocks := prog0.blocks.map fun b => { b with p0 := 5#32 } }, by revert l; decide +kernel⟩,
    case (withWords onLoop image0) (looped loop0) (by decide +kernel) (by decide +kernel)⟩

/-- A zone record's configuration that names no point and no neighbour, as a buffer of ZONE_DEFINE. -/
def zoneWords : List Word :=
  [0x01000000#32, F32.rat 995 1000, F32.zero, F32.zero, F32.ofNat 15, F32.ofNat 30, 0#32, F32.zero, F32.zero, F32.zero,
   0x00010000#32, 0x00010000#32, F32.rat 1 100] ++ List.replicate 18 0x7FFFFF#32 ++ List.replicate 8 0xFFFFFFFF#32 ++
  List.replicate 89 0#32

def zone0 (stepped stopped sound : Bool) : Zone := { words := [], stepped := stepped, stopped := stopped, sound := sound }
def zoneTab : Tab Word := cfgOffsets.foldl (fun t o => Tab.put t (o / 4) (wordAt (wordsBytes zoneWords) o)) []
def onZone : HostCmd := { cmd with target := 15#32 }
def zoned (z : Zone) : Dev := { up with zones := { zones := [(15, z)] } }

/-- At run-time second 200: of zone 15, at a period of 60 s, the due steps of seconds 75, 135 and 195 are over. -/
def dueZone (sound : Bool) (served : Nat) : Zone := { zone0 true false sound with served := served }
def zoneDue (z : Zone) (other : Tab Zone) : State :=
  at0 { up with zones := { zones := (15, z) :: other, tickSec := 200 } }

theorem witness_ZoneSteps :
    (∀ b : Bool, ∃ (zid : Nat) (z : Zone) (s : State), zoneOf s.dev zid = some z ∧ z.stopped = b ∧
      (b = false → dueSec s.dev zid z = none)) ∧
    (∀ b : Bool, ∃ (zid : Nat) (z : Zone) (s : State), zoneOf s.dev zid = some z ∧ z.stopped = false ∧ z.sound = b ∧
      dueSec s.dev zid z = some 195 ∧ zoneEngines s.dev zid z ≠ [] ∧
      (zoneEngines s.dev zid z).any (fun c => testing s.dev (unitZone c)) = false ∧ pipesServe s.dev = true ∧
      stepWaits s.dev zid 195 (zoneEngines s.dev zid z) = false) ∧
    (∃ (zid : Nat) (z : Zone) (s : State), zoneOf s.dev zid = some z ∧ z.stopped = false ∧ dueSec s.dev zid z = some 195 ∧
      stepWaits s.dev zid 195 (zoneEngines s.dev zid z) = true) ∧
    (∀ k ∈ [0, 2], ∃ (zid : Nat) (z : Zone) (s : State), zoneOf s.dev zid = some z ∧ z.stopped = false ∧
      dueSec s.dev zid z = some 195 ∧ passedOver z 195 = k) :=
  ⟨fun b => ⟨15, zone0 true b true, at0 (zoned (zone0 true b true)), by cases b <;> decide +kernel⟩,
    fun b => ⟨15, dueZone b 0, zoneDue (dueZone b 0) [], rfl, rfl, rfl, by cases b <;> decide +kernel⟩,
    ⟨15, dueZone true 0, zoneDue (dueZone true 0) [(13, dueZone true 0)], by decide +kernel⟩,
    fun k h => by
      simp only [List.mem_cons, List.not_mem_nil, or_false] at h
      obtain rfl | rfl := h
      · exact ⟨15, dueZone true 135, zoneDue (dueZone true 135) [], by decide +kernel⟩
      · exact ⟨15, dueZone true 74, zoneDue (dueZone true 74) [], by decide +kernel⟩⟩

def setAt (k : Nat) (w : Word) : List Word := zoneWords.set k w
def defineTab (c : HostCmd) : Zone := { words := cfgOffsets.foldl (fun t o => Tab.put t (o / 4) (wordAt (trim c).buf o)) [] }

/-- A buffer of ZONE_DEFINE for zone 15, of the layout's version. -/
abbrev Defines (c : HostCmd) (s : State) : Prop :=
  c.target.toNat < zoneCount s.dev ∧ 512 ≤ (trim c).bufLen ∧ byteAt (trim c).buf 3 = 1

/-- What it names is in range and there. -/
abbrev Sound (c : HostCmd) (s : State) : Prop :=
  zoneFault c.target.toNat (defineTab c) = none ∧ zoneMissing s.dev (defineTab c) = none ∧
    zoneConflict s.dev (defineTab c) = none

/-- Zones enough that one more does not fit on cluster B: each with a step each second. -/
def eager : Zone := { words := [(0, 1#32)] }
def crowd : Tab Zone := (17, eager) :: (List.range 4400).map fun i => (2 * i + 19, eager)
def crowded : Dev := { up with zones := { zones := crowd } }

theorem load_ge : ∀ (l : Tab Zone) (a : Nat), (∀ p ∈ l, loadOf p.1 p.2 1 = loadUnit) → a + l.length * loadUnit ≤
    l.foldl (fun a p => a + max (loadOf p.1 p.2 1) (match p.2.edit with
      | some ws => loadOf p.1 { words := ws } 1
      | none => 0)) a
  | [], a, _ => by simp
  | p :: l, a, h => by
    refine Nat.le_trans ?_ (load_ge l _ fun q m => h q (List.mem_cons_of_mem _ m))
    show a + (p :: l).length * loadUnit ≤ a + max (loadOf p.1 p.2 1) _ + _
    rw [h p List.mem_cons_self, List.length_cons, Nat.succ_mul]
    generalize (match p.2.edit with
      | some ws => loadOf p.1 { words := ws } 1
      | none => 0) = b
    have := Nat.le_max_left loadUnit b
    omega

theorem load_cons (l : Tab Zone) (z : Zone) (h : ∀ p ∈ l, loadOf p.1 p.2 1 = loadUnit) :
    l.length * loadUnit ≤ zoneLoad ((15, z) :: l) 1 :=
  Nat.le_trans (Nat.le_add_left _ _) (load_ge l _ h)

theorem crowd_full (z : Zone) : zoneFits 15 z crowded = false := by
  have p : Tab.put crowded.zones.zones 15 z = (15, z) :: crowd := by simp [crowded, crowd, Tab.put]
  have m : ∀ q ∈ crowd, loadOf q.1 q.2 1 = loadUnit := by
    have one : ∀ i, loadOf (2 * i + 1) eager 1 = loadUnit := fun i => by
      have : (2 * i + 1) % 2 = 1 := by omega
      simp [loadOf, this, show zStep eager = 1 by decide]
    intro q hq
    simp only [crowd, List.mem_cons, List.mem_map, List.mem_range] at hq
    obtain rfl | ⟨i, -, rfl⟩ := hq
    · show loadOf 17 eager 1 = loadUnit
      rw [show 17 = 2 * 8 + 1 by rfl]
      exact one _
    · show loadOf (2 * i + 19) eager 1 = loadUnit
      rw [show 2 * i + 19 = 2 * (i + 9) + 1 by omega]
      exact one _
  have g := load_cons crowd z m
  have n : crowd.length = 4401 := by simp [crowd]
  have u : 0 < loadUnit := by decide +kernel
  have : ¬ zoneLoad ((15, z) :: crowd) 1 ≤ 4400 * loadUnit := by
    rw [n] at g
    omega
  simp only [zoneFits, p, this, and_false, decide_false]

/-- The eight words of NEIGHBOURS put into the zone's configuration. -/
def nbrTab (c : HostCmd) (z : Zone) : Zone :=
  { words := (List.range 8).foldl (fun t k => Tab.put t (0x1F + k) (wordAt (trim c).buf (4 * k))) (cfgWords z) }
def noNbr : HostCmd := withWords onZone (List.replicate 8 0xFFFFFFFF#32)
def withTab (stepped stopped : Bool) : Zone := { zone0 stepped stopped true with words := zoneTab }

theorem witness_ZoneCommands :
    Case 0x0301 (fun c s => zoneCount s.dev ≤ c.target.toNat) ∧
    Case 0x0301 (fun c s => Defines c s ∧ (zoneFault c.target.toNat (defineTab c)).isSome = true) ∧
    (∀ old ∈ [none, some (zone0 true false true), some (zone0 false false true), some (zone0 true true true)],
      Case 0x0301 (fun c s => Defines c s ∧ Sound c s ∧ zoneFits c.target.toNat (defineTab c) s.dev = true ∧
        zoneOf s.dev c.target.toNat = old)) ∧
    Case 0x0301 (fun c s => Defines c s ∧ Sound c s ∧ zoneFits c.target.toNat (defineTab c) s.dev = false) ∧
    (∀ x ∈ [(true, false), (false, false), (true, true)], Case 0x0303 (fun c s => ∃ z, namedZone c s.dev = some z ∧
      32 ≤ (trim c).bufLen ∧ zoneFault c.target.toNat (nbrTab c z) = none ∧ zoneMissing s.dev (nbrTab c z) = none ∧
      z.stepped = x.1 ∧ z.stopped = x.2)) ∧
    Case 0x0303 (fun c s => ∃ z, namedZone c s.dev = some z ∧ 32 ≤ (trim c).bufLen ∧
      (zoneFault c.target.toNat (nbrTab c z)).isSome = true) ∧
    Case 0x0302 (fun c s => (namedZone c s.dev).isSome = true ∧ fld c.p0 7 0 = 5 ∧ (trim c).bufLen = 0) ∧
    Case 0x0302 (fun c s => (namedZone c s.dev).isSome = true ∧ fld c.p0 7 0 = 6 ∧ fld c.p0 15 8 = 192 ∧ (trim c).bufLen = 0) ∧
    Case 0x0305 (fun c s => (namedZone c s.dev).isSome = true ∧ (trim c).bufLen = 1544) ∧
    (∀ op ∈ [0x0302, 0x0303, 0x0305], Case op (fun c s => namedZone c s.dev = none)) ∧
    Case 0x0304 (fun c _ => c.target.toNat = 15 ∧ c.count.toNat = 192 ∧ 16 + 8 * c.count.toNat = (trim c).bufLen ∧
      (wordAt (trim c).buf 0).toNat < 8388608 ∧ (wordAt (trim c).buf 4).toNat < 8388608 ∧
      (wordAt (trim c).buf 8).toNat % 900 = 0 ∧ wordAt (trim c).buf 12 = 0#32) :=
  ⟨case { cmd with target := 16#32 } up (by decide +kernel) (by decide +kernel),
    case (withWords onZone (setAt 31 15#32)) up (by decide +kernel) ⟨by decide +kernel, by decide +kernel⟩,
    fun old h => by
      simp only [List.mem_cons, List.not_mem_nil, or_false] at h
      obtain rfl | rfl | rfl | rfl := h
      · exact case (withWords onZone zoneWords) up (by decide +kernel) (by decide +kernel)
      · exact case (withWords onZone zoneWords) (zoned (zone0 true false true)) (by decide +kernel)
          (by decide +kernel)
      · exact case (withWords onZone zoneWords) (zoned (zone0 false false true)) (by decide +kernel)
          (by decide +kernel)
      · exact case (withWords onZone zoneWords) (zoned (zone0 true true true)) (by decide +kernel)
          (by decide +kernel),
    case (withWords onZone zoneWords) crowded (by decide +kernel) ⟨by decide +kernel, by decide +kernel, crowd_full _⟩,
    fun x h => by
      simp only [List.mem_cons, List.not_mem_nil, or_false] at h
      obtain rfl | rfl | rfl := h
      · exact case noNbr (zoned (withTab true false)) (by decide +kernel) ⟨withTab true false, by decide +kernel, by decide +kernel⟩
      · exact case noNbr (zoned (withTab false false)) (by decide +kernel) ⟨withTab false false, by decide +kernel, by decide +kernel⟩
      · exact case noNbr (zoned (withTab true true)) (by decide +kernel) ⟨withTab true true, by decide +kernel, by decide +kernel⟩,
    case (withWords onZone (List.replicate 8 15#32)) (zoned (withTab true false)) (by decide +kernel) ⟨withTab true false, by decide +kernel, by decide +kernel⟩,
    case { onZone with p0 := 5#32 } (zoned (zone0 true false true)) (by decide +kernel) (by decide +kernel),
    case { onZone with p0 := 0xC006#32 } (zoned (zone0 true false true)) (by decide +kernel) (by decide +kernel),
    case (room onZone 1544) (zoned (zone0 true false true)) (by decide +kernel) (by decide +kernel),
    fun op h => ⟨onZone, host op onZone up, ready_of (by revert op; decide +kernel), rfl⟩,
    case { room { cmd with target := 15#32, count := 192#32 } 1552 with buf := [] } up (by decide +kernel) (by decide +kernel)⟩

/-- The calendar date 31 December of year 255, its last second but one. -/
def lastDay : RtcFields := { sec := 58, min := 59, hour := 23, day := 31, wday := 7, month := 12, year := 255 }
def inClk (c : Clock) : State := at0 { up with clk := c }

theorem witness_WallTimeCountsSeconds :
    ∃ (k : Nat) (rest : List Instr) (s : State), s.pending = List.replicate k .rtcIncrement ++ rest ∧ clkOn s.dev = true ∧
      halted s.dev = false ∧ oddDate s.dev.clk.now = false ∧
      daysTo s.dev.clk.now * 86400 + todOf s.dev.clk.now + k + 1 = daysToMonth 256 1 * 86400 ∧ k = 1 :=
  ⟨1, [.wake], { inClk { now := lastDay } with pending := [.rtcIncrement, .wake] }, by decide +kernel⟩

theorem witness_MonthLengths :
    ∀ m ∈ [0, 2, 4, 12, 15], ∃ s : State, clkOn s.dev = true ∧ halted s.dev = false ∧ s.dev.clk.now.sec = 59 ∧
      s.dev.clk.now.min = 59 ∧ s.dev.clk.now.hour = 23 ∧ s.dev.clk.now.month = m ∧ m < 16 :=
  fun m h => ⟨inClk { now := { lastDay with sec := 59, month := m } }, rfl, (by decide : bit 8#32 0 = false), rfl, rfl, rfl, rfl,
    by revert m; decide⟩

def disciplining (st : TbState) (secs : Nat) : State :=
  at0 { up with clk := { ctrl := 0x100#32, discOpen := true, discSecs := secs }, tb := { st := st } }

theorem witness_RtcAndBackup :
    (∃ s : State, clkOn s.dev = true ∧ halted s.dev = false) ∧ (∃ s : State, clkOn s.dev = false) ∧
    (∃ s : State, halted s.dev = true ∧ s.dev.clk.written = true) ∧
    (∃ s : State, fld s.dev.clk.wake 11 0 = 0) ∧
    (∀ b : Bool, ∃ s : State, clkOn s.dev = true ∧ fld s.dev.clk.wake 11 0 ≠ 0 ∧ bit s.dev.clk.byte31 2 = b) ∧
    (∃ s : State, s.dev.clk.discOpen = false ∧ bit s.dev.clk.ctrl 8 = false) ∧
    (∃ s : State, s.dev.clk.discOpen = true ∧ bit s.dev.clk.ctrl 8 = true ∧ s.dev.clk.discSecs = 86399) ∧
    (∀ st ∈ [TbState.locked, TbState.holdover], ∃ s : State, s.dev.clk.discOpen = true ∧ bit s.dev.clk.ctrl 8 = true ∧
      s.dev.clk.discSecs = 86400 ∧ s.dev.tb.st = st) ∧
    (∃ s : State, s.dev.clk.onVbak = false) ∧ (∃ s : State, s.dev.clk.onVbak = true) :=
  ⟨⟨at0 up, by decide +kernel⟩, ⟨inClk { absent := true }, by decide +kernel⟩,
    ⟨inClk { ctrl := 1#32, written := true }, by decide +kernel⟩, ⟨at0 up, by decide +kernel⟩,
    fun b => ⟨inClk { wake := 1#32, byte31 := setBit 0#32 2 b }, by cases b <;> decide +kernel⟩, ⟨at0 up, by decide +kernel⟩,
    ⟨disciplining .locked 86399, by decide +kernel⟩, fun st _ => ⟨disciplining st 86400, rfl, (by decide : bit 0x100#32 8 = true), rfl, rfl⟩,
    ⟨at0 up, rfl⟩, ⟨inClk { onVbak := true }, rfl⟩⟩

theorem witness_TimeCommands :
    Case 0x0401 (fun _ _ => True) ∧ Case 0x0402 (fun _ _ => True) ∧ Case 0x0403 (fun _ s => bit s.dev.clk.ctrl 8 = true) ∧
    Case 0x0403 (fun _ s => bit s.dev.clk.ctrl 8 = false) :=
  ⟨case cmd State.reset.dev (by decide +kernel) trivial, case cmd State.reset.dev (by decide +kernel) trivial,
    case cmd { up with clk := { ctrl := 0x100#32 } } (by decide +kernel) (by decide +kernel),
    case cmd up (by decide +kernel) (by decide +kernel)⟩

/-- A schedule for a plain point without transitions or exceptions, alone in a device with a valid clock. -/
def sched0 : Sched := { prio := 16, rule := 0, target := 8191, dflt := F32.one, days := [], excs := [], authorised := false, size := 64 }
def sched1 (p : Option Word) (v : Word) : Sched := { sched0 with present := p, dflt := v }
def withSched (x : Sched) : State := at0 { points with clk := { status := 0x80#32 }, sched := { scheds := [(4095, x)] } }
def scheduled : State := withSched sched0

/-- Its image. -/
def schedImage : List Word := sealedWords 7 [0x00001001#32, 8191#32, F32.one, 0#32, 0#32, 0#32, 0#32, 0#32]

theorem witness_Schedules :
    (∃ s : State, schedRuns s.dev = false) ∧
    (∀ p ∈ [none, some F32.zero], ∀ v ∈ [F32.one, nullWord], ∃ (n : Nat) (x : Sched) (s : State), schedRuns s.dev = true ∧
      s.dev.sched.scheds = [(n, x)] ∧ x.present = p ∧ inRepeat (ruleOf s.dev x.rule) (utcNow s.dev) = false ∧
      presentAt s.dev x (utcNow s.dev) = v ∧ x.present ≠ some v) ∧
    Case 0x0404 (fun c s => c.target.toNat = 4095 ∧ (trim c).bufLen = 0x20 ∧ byteAt (trim c).buf 0 = 1 ∧
      (let ex := excsAt (trim c).buf (byteAt (trim c).buf 3) (dayOffset (trim c).buf 7)
       ex.2 ≤ (trim c).bufLen ∧ crc32c (zero4 ((trim c).buf.take ex.2) 0x1C) = wordAt (trim c).buf 0x1C ∧
       schedFault (trim c).buf ex.1 = none ∧ recOf s.dev (fld (wordAt (trim c).buf 4) 22 0) = some plain ∧
       isPredef (fld (wordAt (trim c).buf 4) 22 0) = false ∧
       loopFits (up64 ex.2) (((Tab.find s.dev.sched.scheds c.target.toNat).map (·.size)).getD 0) s.dev = true)) ∧
    Case 0x0405 (fun c _ => c.target.toNat = 4095 ∧ fld c.p0 1 0 = 2) ∧
    Case 0x0406 (fun c _ => c.target.toNat = 63 ∧ (trim c).bufLen = 512 ∧
      ∀ i, i < 64 → calEntryFault (wordAt (trim c).buf (8 * i)) (wordAt (trim c).buf (8 * i + 4)) = none) ∧
    Case 0x0407 (fun c _ => c.target.toNat = 15 ∧ c.count.toNat = 1 ∧ (trim c).bufLen = 16 ∧
      ∀ i, i < c.count.toNat → ruleFault ((List.range 4).map fun j => wordAt (trim c).buf (16 * i + 4 * j)) = none) :=
  ⟨⟨at0 up, by decide +kernel⟩,
    fun p hp v hv => by
      simp only [List.mem_cons, List.not_mem_nil, or_false] at hp hv
      obtain rfl | rfl := hp <;> obtain rfl | rfl := hv
      · exact ⟨4095, sched0, scheduled, by decide +kernel⟩
      · exact ⟨4095, sched1 none nullWord, withSched (sched1 none nullWord), by decide +kernel⟩
      · exact ⟨4095, sched1 (some F32.zero) F32.one, withSched (sched1 (some F32.zero) F32.one), by decide +kernel⟩
      · exact ⟨4095, sched1 (some F32.zero) nullWord, withSched (sched1 (some F32.zero) nullWord), by decide +kernel⟩,
    case (withWords { cmd with target := 4095#32 } schedImage) points (by decide +kernel) (by decide +kernel),
    case { cmd with target := 4095#32, p0 := 2#32 } up (by decide +kernel) (by decide +kernel),
    case (room { cmd with target := 63#32 } 512) up (by decide +kernel) (by decide +kernel),
    case (withWords { cmd with target := 15#32, count := 1#32 } (List.replicate 4 0#32)) up (by decide +kernel) (by decide +kernel)⟩

/-- Converter `c` and universal input `n` alone set up. -/
def inAdc (c : Nat) (a : Adc) : Dev := setAdc c a { up with inp := { refReady := true } }
def inUi (n : Nat) (u : Ui) : Dev := setUi n u up
def sampling (settle : Nat) (filt : Word) (notch : Option Notch) : Adc :=
  { run := .slot 63, settle := settle, calibrated := true, filt := [(63, filt)], notch := notch }
def timed (run : AdcRun) (pending : Option Nat) : Adc :=
  { timer := 0x80000000#32, cfg := [(63, 0x80000000#32)], run := run, pending := pending }

/-- Four bins of a notch filter, a sinc word in the last; converter 3 at the start of the bin after them. -/
def fourBins : Notch := { opened := some 0, cur := 3, bins := [(3, (100, 1, none))] }
def notched : State := at0 { inAdc 3 (sampling 0 0x800000#32 (some fourBins)) with tb := { cycle := 1#32 } }

theorem witness_Conversions :
    (∀ run ∈ [AdcRun.idle, .urgent .selfTest none], ∃ (c : Fin 4) (st : Stamp) (s : State),
      (adcOf (arriveField st (fresh s)) c.val).run = run ∧ (adcOf (arriveField st (fresh s)) c.val).lastConf = none) ∧
    (∀ x ∈ [(1, 0#32), (2, 0x800000#32)], ∃ (c : Fin 4) (st : Stamp) (s : State),
      (adcOf (arriveField st (fresh s)) c.val).run = .slot 63 ∧ (adcOf (arriveField st (fresh s)) c.val).settle = x.1 ∧
      bit (slotFilt (adcOf (arriveField st (fresh s)) c.val) 63) 23 = bit x.2 23) ∧
    (∀ b : Bool, ∃ (c : Fin 4) (st : Stamp) (s : State),
      (adcOf (arriveField st (fresh s)) c.val).run = .slot 63 ∧ (adcOf (arriveField st (fresh s)) c.val).settle = 0 ∧
      bit (slotFilt (adcOf (arriveField st (fresh s)) c.val) 63) 23 = false ∧
      (refState (arriveField st (fresh s)) (adcOf (arriveField st (fresh s)) c.val)
        (slotRef (slotCfg (adcOf (arriveField st (fresh s)) c.val) 63)) == 0) = b) ∧
    (∃ (c : Fin 4) (st : Stamp) (x : Notch) (s : State),
      (adcOf (arriveField st (fresh s)) c.val).run = .slot 63 ∧ (adcOf (arriveField st (fresh s)) c.val).settle = 1 ∧
      bit (slotFilt (adcOf (arriveField st (fresh s)) c.val) 63) 23 = true ∧
      (adcOf (arriveField st (fresh s)) c.val).notch = some x ∧
      binOf (notchBins (slotFilt (adcOf (arriveField st (fresh s)) c.val) 63)) st = x.cur) ∧
    (∃ (c : Fin 4) (st : Stamp) (o : Nat) (x : Notch) (s : State),
      (adcOf (arriveField st (fresh s)) c.val).run = .slot 63 ∧ (adcOf (arriveField st (fresh s)) c.val).settle = 0 ∧
      bit (slotFilt (adcOf (arriveField st (fresh s)) c.val) 63) 23 = true ∧
      (adcOf (arriveField st (fresh s)) c.val).notch = some x ∧
      (let m := notchBins (slotFilt (adcOf (arriveField st (fresh s)) c.val) 63)
       x.cur < binOf m st ∧ x.opened = some o ∧ o + m = x.cur + 1 ∧ (window m (x.cur + 1) x).2.1 ≠ 0) ∧
      refState (arriveField st (fresh s)) (adcOf (arriveField st (fresh s)) c.val)
        (slotRef (slotCfg (adcOf (arriveField st (fresh s)) c.val) 63)) = 0) ∧
    (∀ u ∈ [none, some (Urgent.selfTest, some 63), some (.readNow 47 (some cmd), some 63)], ∃ (c : Fin 4) (st : Stamp) (s : State),
      urgentOf (adcOf (arriveField st (fresh s)) c.val).run = u) ∧
    (∀ b : Bool, ∃ (bank : Fin 8) (s : State),
      bit (Tab.get 0#32 (adcOf s.dev (2 + bank.val / 4)).pwmTrig (bank.val % 4)) 31 = b) ∧
    (∃ (c : Fin 4) (s : State), bit (adcOf s.dev c.val).timer 31 = true ∧ retired s.dev (unitAdc c.val) = true) ∧
    (∀ b : Bool, ∃ (c : Fin 4) (s : State), bit (adcOf s.dev c.val).timer 31 = true ∧ retired s.dev (unitAdc c.val) = false ∧
      (adcOf s.dev c.val).run = .idle ∧ nextSlot (adcOf s.dev c.val) (fld (adcOf s.dev c.val).timer 29 24) = some 63 ∧
      ((adcOf s.dev c.val).lastConf == some (confKey (slotCfg (adcOf s.dev c.val) 63) (slotFilt (adcOf s.dev c.val) 63))) = b) ∧
    (∀ p ∈ [none, some 0], ∃ (c : Fin 4) (s : State), bit (adcOf s.dev c.val).timer 31 = true ∧
      retired s.dev (unitAdc c.val) = false ∧ (adcOf s.dev c.val).run = .slot 63 ∧ (adcOf s.dev c.val).pending = p) :=
  ⟨fun run h => ⟨3, ⟨0#32, 0#16⟩, at0 (inAdc 3 { run := run }), by revert run; decide +kernel⟩,
    fun x h => ⟨3, ⟨0#32, 0#16⟩, at0 (inAdc 3 (sampling x.1 x.2 none)), by revert x; decide +kernel⟩,
    fun b => ⟨3, ⟨0#32, 0#16⟩, at0 (inAdc 3 { sampling 0 0#32 none with calibrated := b }), by cases b <;> decide +kernel⟩,
    ⟨3, ⟨0#32, 0#16⟩, { cur := 0 }, at0 (inAdc 3 (sampling 1 0x800000#32 (some { cur := 0 }))), by decide +kernel⟩,
    ⟨3, ⟨1#32, 0#16⟩, 0, fourBins, notched, by decide +kernel⟩,
    fun u h => ⟨3, ⟨0#32, 0#16⟩, at0 (inAdc 3 { run := (u.map fun u => AdcRun.urgent u.1 u.2).getD .idle }), by
      revert u; decide +kernel⟩,
    fun b => ⟨7, at0 (inAdc 3 { pwmTrig := [(3, setBit 0#32 31 b)] }), by cases b <;> decide +kernel⟩,
    ⟨3, at0 { inAdc 3 (timed .idle none) with integ := { retired := [unitAdc 3] } }, by decide +kernel⟩,
    fun b => ⟨3, at0 (inAdc 3 { timed .idle none with lastConf := if b then some (0, 0) else some (1, 0) }), by
      cases b <;> decide +kernel⟩,
    fun p h => ⟨3, at0 (inAdc 3 (timed (.slot 63) p)), by revert p; decide +kernel⟩⟩

/-- Calibrating, without and with its long operation suspended. -/
def calibrating (g : Nat) : Dev := inAdc 3 { run := .cal g false, calNew := (List.range g).map fun k => (k, (0#32, F32.one)) }
def lop0 (op st : Nat) : LongOp :=
  { cmd := cmd, opcode := op, st := st, items := 0, total := 8192, r0 := 0#32, r1 := 0#32, r2 := 0#32, status := 0
    suspendBy := none, cancelBy := none, cancel := false, doneOrder := 0, reserved := true, progress := false
    checkpoint := ⟨0#32, 0#16⟩, pos := 0 }
def calSuspended : Dev :=
  { calibrating 0 with
    inp := { (calibrating 0).inp with cals := [⟨some 15, [3], 0, false⟩] }, lop := { slots := [(15, lop0 0x0503 3)] } }

theorem witness_InputsAndReferences :
    (∃ (v w : Word) (s : State), s.dev.inp.extGood = true ∧
      F32.le (F32.abs (F32.sub v s.dev.inp.vrefExt)) (F32.mul s.dev.inp.vrefExt (F32.rat 2 100)) = false ∧
      F32.le (F32.rat 475 100) w = true) ∧
    (∃ (v w : Word) (s : State), s.dev.inp.ratioGood = true ∧ (F32.le (F32.rat 475 100) w && F32.le w (F32.rat 525 100)) = false ∧
      v = F32.ofNat 5) ∧
    (∀ o ∈ [none, some 63], ∃ (c : Fin 4) (slot : Fin 64) (s : State), slot.val = 63 ∧ (adcOf s.dev c.val).latchSlot = o) ∧
    (∀ b : Bool, ∃ (n : Fin 48) (st : Stamp) (s : State), uiMode (uiOf (arriveField st (fresh s)) n.val) = 5 ∧
      (arriveField st (fresh s)).link.coreLost = b) ∧
    (∃ (n : Fin 48) (closed : Bool) (st : Stamp) (s : State),
      let u := uiOf (arriveField st (fresh s)) n.val
      uiMode u = 6 ∧ u.level ≠ closed ∧ closed ≠ bit u.cfg 14) ∧
    (∀ m ∈ [4, 6, 7], ∃ (n : Fin 48) (closed : Bool) (st : Stamp) (s : State),
      let u := uiOf (arriveField st (fresh s)) n.val
      uiMode u = m ∧ u.level = closed) ∧
    (∃ (c : Fin 4) (s : State), ∀ g, (adcOf s.dev c.val).run ≠ .cal g false) ∧
    (∃ (c : Fin 4) (s : State), calHeld c.val s.dev = true) ∧
    (∃ (c : Fin 4) (s : State), (adcOf s.dev c.val).run = .cal 3 false ∧ calHeld c.val s.dev = false ∧
      (adcOf s.dev c.val).urgents = []) ∧
    (∀ b : Bool, ∃ (c : Fin 4) (zero ref : Int) (s : State), (adcOf s.dev c.val).run = .cal 4 false ∧ calHeld c.val s.dev = false ∧
      (Tab.put (adcOf s.dev c.val).calNew 4 (wd (unsgn 24 zero), calGain zero ref)).all (fun p => calOk p.2) = b) :=
  ⟨⟨F32.zero, F32.ofNat 5, at0 up, by decide +kernel⟩, ⟨F32.ofNat 5, F32.ofNat 6, at0 up, by decide +kernel⟩,
    fun o h => ⟨3, 63, at0 (inAdc 3 { latchSlot := o }), by revert o; decide +kernel⟩,
    fun b => ⟨47, ⟨0#32, 0#16⟩, at0 { inUi 47 { cfg := 5#32 } with link := { coreLost := b } }, by cases b <;> decide +kernel⟩,
    ⟨47, true, ⟨0#32, 0#16⟩, at0 (inUi 47 { cfg := 6#32 }), by decide +kernel⟩,
    fun m h => ⟨47, false, ⟨0#32, 0#16⟩, at0 (inUi 47 { cfg := wd m }), by revert m; decide +kernel⟩,
    ⟨3, at0 up, fun g h => by cases h⟩, ⟨3, at0 calSuspended, by decide +kernel⟩,
    ⟨3, at0 (calibrating 3), by decide +kernel⟩,
    fun b => ⟨3, 0, if b then 6291456 else 1, at0 (calibrating 4), by cases b <;> decide +kernel⟩⟩

/-- Coil channel 47 alone set up, and deliveries of a value to it or to another output. -/
def inChan (c : Chan) : Dev := setChan 47 c up
def waitsFor (id : Nat) (v : Word) (q : Nat) : Delivery :=
  { id := id, value := v, quality := q
    check := pointCheck id v q (((recOf up id).map (·.kind)).getD 0), stamp := ⟨0#32, 0#16⟩, claim := 1#16 }
def delivering (x : Delivery) (d : Dev) : Dev := { d with pe := { d.pe with deliveries := [x] } }
def atCoil (c : Chan) : Dev := normal 47 (setChan 47 { c with cfg := 1#32 } { up with coil := { vdrvGood := true } })
def got (id : Nat) (v : Word) (d : Dev) : State := at0 (delivering (waitsFor id v 0) d)

/-- A written value has come to its stage and all gates let it through. -/
def Through (id k : Nat) (x : Delivery) (d : Dev) (s : State) : Prop :=
  popDelivery id (fresh s) = (some x, d) ∧ x.refresh = false ∧ gates k x d = none ∧ F32.finite x.value = true

/-- One sample at full scale, then half of it, then full scale: a dip of the current. -/
def dipCodes : List Nat := List.replicate 16 4095 ++ List.replicate 16 2048 ++ List.replicate 16 4095

theorem witness_CoilEvents :
    (∃ (ch : Fin 48) (d : Dev) (s : State), popDelivery (predefBase + coilPoint ch.val 0) (fresh s) = (none, d)) ∧
    (∃ (ch : Fin 48) (x : Delivery) (d : Dev) (s : State), Through (predefBase + coilPoint ch.val 0) ch.val x d s ∧
      chEnabled (chanOf s.dev ch.val) = true ∧ (chanOf s.dev ch.val).st = 3 ∧ F32.gt (limitCmd x.value) F32.zero = true ∧
      F32.isZero (rateOf d x.id) = true ∧ x.id = predefBase + coilPoint ch.val 0) ∧
    (∃ (ch : Fin 48) (x : Delivery) (d : Dev) (s : State), Through (predefBase + coilPoint ch.val 0) ch.val x d s ∧
      chEnabled (chanOf s.dev ch.val) = true ∧ (chanOf s.dev ch.val).st = 3 ∧ F32.gt (limitCmd x.value) F32.zero = false) ∧
    (∀ st ∈ [0, 4], ∃ (ch : Fin 48) (x : Delivery) (d : Dev) (s : State), Through (predefBase + coilPoint ch.val 0) ch.val x d s ∧
      chEnabled (chanOf s.dev ch.val) = true ∧ (chanOf s.dev ch.val).st = st ∧ F32.gt (limitCmd x.value) F32.zero = true ∧
      (chanOf s.dev ch.val).armed = false ∧ chAngle (chanOf s.dev ch.val) = false ∧ s.dev.coil.vdrvGood = true ∧
      overLimit s.dev (chanOf s.dev ch.val) = false ∧ pullingIn s.dev (ch.val / 6) = none) ∧
    (∃ (ch : Fin 48) (x : Delivery) (d : Dev) (s : State), Through (predefBase + coilPoint ch.val 0) ch.val x d s ∧
      chEnabled (chanOf s.dev ch.val) = true ∧ (chanOf s.dev ch.val).st = 5) ∧
    (∀ st ∈ [0, 1, 2, 3, 4, 5], ∀ b : Bool, ∃ (ch : Fin 48) (s : State), (chanOf s.dev ch.val).st = st ∧
      (chanOf s.dev ch.val).failSafe = b) ∧
    (∀ b : Bool, ∃ (ch : Fin 48) (s : State), (chanOf s.dev ch.val).st = 2 ∧ bit (chanOf s.dev ch.val).cfg 17 = true ∧
      (chanOf s.dev ch.val).dipSeen = b) ∧
    (∃ (ch : Fin 48) (us : Nat) (s : State),
      let e := chanOf (arriveField (pullStamp ch.val dipCodes.length (fresh s)) (fresh s)) ch.val
      (chanOf s.dev ch.val).st = 2 ∧ e.st = 2 ∧ bit e.cfg 16 = true ∧ e.noDetect = false ∧ e.dipSeen = false ∧
      dipTime (1000 * fld e.cfg 15 8) dipCodes = some us) ∧
    (∃ (ch : Fin 48) (s : State), (chanOf s.dev ch.val).st = 2 ∧
      dipTime (1000 * fld (chanOf (arriveField (pullStamp ch.val 0 (fresh s)) (fresh s)) ch.val).cfg 15 8) [] = none) := by
  refine ⟨⟨47, up, at0 up, rfl⟩,
    ⟨47, waitsFor coil47 F32.one 0, atCoil { st := 3 }, got coil47 F32.one (atCoil { st := 3 }), ?_, by decide +kernel⟩,
    ⟨47, waitsFor coil47 F32.zero 0, atCoil { st := 3 }, got coil47 F32.zero (atCoil { st := 3 }), ?_, by decide +kernel⟩,
    fun st h => ⟨47, waitsFor coil47 F32.one 0, atCoil { st := st }, got coil47 F32.one (atCoil { st := st }), ?_, by
      revert st; decide +kernel⟩,
    ⟨47, waitsFor coil47 F32.one 0, atCoil { st := 5 }, got coil47 F32.one (atCoil { st := 5 }), ?_, by decide +kernel⟩,
    fun st h b => ⟨47, at0 (inChan { st := st, failSafe := b }), by revert b; revert st; decide +kernel⟩,
    fun b => ⟨47, at0 (inChan { st := 2, cfg := 0x20000#32, dipSeen := b }), by cases b <;> decide +kernel⟩,
    ⟨47, 23, at0 (inChan { st := 2, cfg := 0x10000#32 }), by decide +kernel⟩,
    ⟨47, at0 (inChan { st := 2 }), by decide +kernel⟩⟩
  all_goals first
    | (unfold Through; decide +kernel)
    | (unfold Through; revert st; decide +kernel)

/-- A diagnostic reading: node and bank in mV, nothing else seen. -/
def reading (chanMv bankMv : Nat) : DiagReading :=
  { overFs := false, bypass := false, noCurrent := false, chanMv := chanMv, bankMv := bankMv, stayLow := false, allLow := false }

/-- No channel of the bank is energised or deferred. -/
abbrev Quiet (b : Fin 8) (s : State) : Prop :=
  ((bankChans b.val).any fun k => (chanOf s.dev k).st != 0 && (chanOf s.dev k).st != 5) = false

theorem witness_CoilFaults :
    (∀ st ∈ [0, 1, 2, 3, 5], ∃ (ch : Fin 48) (s : State), (chanOf s.dev ch.val).st = st) ∧
    (∀ st ∈ [1, 2, 3, 4], ∃ (b : Fin 8) (k : Nat) (s : State), k ∈ bankChans b.val ∧ (chanOf s.dev k).st = st ∧
      (energised (chanOf s.dev k).st = true ∨ st = 1) ∧ ¬ Quiet b s) ∧
    (∀ x ∈ [(500, 2000, 1), (5001, 2000, 3), (2000, 2000, 0), (500, 500, 2)],
      ∃ (b : Fin 8) (nodes : List Nat) (stay : List Bool) (n : Nat) (s : State), Quiet b s ∧
      (∃ m, m < 6 ∧ stay.getD m false = false) ∧ n = 5 ∧ stay.getD n false = true ∧ offCode (nodes.getD n 0) x.2.1 = some x.2.2 ∧
      chEnabled (chanOf s.dev (6 * b.val + n)) = true ∧ (chanOf s.dev (6 * b.val + n)).st = 0) ∧
    (∃ (b : Fin 8) (mv : Nat) (nodes : List Nat) (stay : List Bool) (k : Nat) (s : State), Quiet b s ∧
      (∀ n, n < 6 → stay.getD n false = true) ∧ offCode (nodes.getD 5 0) mv = some 2 ∧ k ∈ bankChans b.val ∧
      chEnabled (chanOf s.dev k) = true) ∧
    (∀ low : Bool, ∃ (ch : Fin 48) (r : DiagReading) (s : State), Tab.find s.dev.integ.tests (unitChan ch.val) = none ∧
      (diagVerdict s.dev ch.val r).1 = some 2 ∧ r.allLow = low) ∧
    (∃ (ch : Fin 48) (r : DiagReading) (s : State), Tab.find s.dev.integ.tests (unitChan ch.val) = none ∧
      (diagVerdict s.dev ch.val r).1 = some 3) ∧
    (∀ x ∈ [(5, 0, 2000, false), (0, 0, 2000, false), (4, 0, 1999, true)], ∃ (ch : Fin 48) (r : DiagReading) (s : State),
      Tab.find s.dev.integ.tests (unitChan ch.val) = none ∧ (chanOf s.dev ch.val).st = x.1 ∧
      diagVerdict s.dev ch.val r = (none, x.2.2.2)) ∧
    (∃ (ch : Fin 48) (s : State), energised (chanOf s.dev ch.val).st = true) ∧
    (∃ (ch : Fin 48) (s : State), (chanOf s.dev ch.val).st ≠ 1) :=
  ⟨fun st h => ⟨47, at0 (inChan { st := st }), by revert st; decide +kernel⟩,
    fun st h => ⟨7, 47, at0 (inChan { st := st }), by revert st; decide +kernel⟩,
    fun x h => ⟨7, [0, 0, 0, 0, 0, x.1], [false, false, false, false, false, true], 5, at0 (inChan { cfg := 1#32 }), by
      revert x; decide +kernel⟩,
    ⟨7, 500, List.replicate 6 0, List.replicate 6 true, 47, at0 (inChan { cfg := 1#32 }), by decide +kernel⟩,
    fun low => ⟨47, { reading 500 500 with stayLow := true, allLow := low }, at0 up, by cases low <;> decide +kernel⟩,
    ⟨47, reading 5001 2000, at0 up, by decide +kernel⟩,
    fun x h => ⟨47, reading x.2.2.1 2000, at0 (inChan { st := x.1 }), by revert x; decide +kernel⟩,
    ⟨47, at0 (inChan { st := 2 }), by decide +kernel⟩, ⟨47, at0 up, by decide +kernel⟩⟩

/-- A thyristor gate that is on, normal, without a lock to wait for and without a slew rate, at a zero crossing. -/
def Steady (n : Fin 16) (rising mode : Bool) (s : State) : Prop :=
  let d := arriveField ⟨s.dev.tb.cycle, hw ((tgZc (tgOf s.dev n.val) + if rising then 0 else 32768) % 65536)⟩ (fresh s)
  bit (tgOf d n.val).cfg 0 = true ∧ stageState d (64 + n.val) = 0 ∧ bit (tgOf d n.val).cfg 2 = false ∧
    F32.isZero (rateOf d (tgId n.val)) = true ∧ bit (tgOf d n.val).cfg 1 = mode

theorem witness_OutputStages :
    (∃ (n : Fin 16) (k : Fin 8) (s : State), popDelivery (aoId n.val) (fresh s) = (none, fresh s) ∧
      popDelivery (tgId n.val) (fresh s) = (none, fresh s) ∧ popDelivery (fanId k.val) (fresh s) = (none, fresh s)) ∧
    (∃ (n : Fin 16) (x : Delivery) (d : Dev) (s : State), Through (aoId n.val) (48 + n.val) x d s ∧
      bit (aoOf s.dev n.val).cfg 0 = true ∧ F32.isZero (rateOf s.dev (aoId n.val)) = true) ∧
    (∃ (n : Fin 16) (x : Delivery) (d : Dev) (s : State), Through (tgId n.val) (64 + n.val) x d s ∧
      bit (tgOf s.dev n.val).cfg 0 = true) ∧
    (∃ (k : Fin 8) (x : Delivery) (d : Dev) (s : State), Through (fanId k.val) (80 + k.val) x d s ∧
      bit (fanOf s.dev k.val).cfg 0 = true ∧ F32.isZero (rateOf s.dev (fanId k.val)) = true) ∧
    (∃ (n : Fin 16) (s : State), stageState s.dev (48 + n.val) = 0 ∧ bit (aoOf s.dev n.val).cfg 0 = true) ∧
    (∃ (n : Fin 16) (k : Fin 8) (ch : Fin 48) (s : State), stageState s.dev (48 + n.val) ≠ 0 ∧ stageState s.dev (80 + k.val) ≠ 0 ∧
      stageState s.dev ch.val ≠ 0 ∧ stageState s.dev (64 + n.val) ≠ 0) ∧
    (∃ (k : Fin 8) (s : State), stageState s.dev (80 + k.val) = 0 ∧ bit (fanOf s.dev k.val).cfg 0 = true) ∧
    (∃ (ch : Fin 48) (s : State), stageState s.dev ch.val = 0 ∧ (chanOf s.dev ch.val).st = 3) ∧
    (∃ (n : Fin 16) (s : State), stageState s.dev (64 + n.val) = 0 ∧ bit (tgOf s.dev n.val).cfg 0 = true) ∧
    (∀ rising : Bool, ∃ (n : Fin 16) (s : State), let d := arriveField ⟨s.dev.tb.cycle,
      hw ((tgZc (tgOf s.dev n.val) + if rising then 0 else 32768) % 65536)⟩ (fresh s)
      bit (tgOf d n.val).cfg 0 = false) ∧
    (∀ rising : Bool, ∃ (n : Fin 16) (s : State), let d := arriveField ⟨s.dev.tb.cycle,
      hw ((tgZc (tgOf s.dev n.val) + if rising then 0 else 32768) % 65536)⟩ (fresh s)
      bit (tgOf d n.val).cfg 0 = true ∧ stageState d (64 + n.val) < 2 ∧ bit (tgOf d n.val).cfg 2 = true ∧ d.tb.st ≠ .locked) ∧
    (∀ rising : Bool, ∀ x ∈ [(32767, some 32767), (32768, none)], ∃ (n : Fin 16) (s : State), Steady n rising false s ∧
      (tgOf s.dev n.val).held = some (F32.ofNat x.1) ∧ tgDelay (tgOf s.dev n.val) (F32.ofNat x.1) = x.2) ∧
    (∀ rising : Bool, ∃ (n : Fin 16) (s : State), Steady n rising true s) ∧
    (∃ (k : Fin 8) (us : Nat) (s : State), bit (fanOf s.dev k.val).cfg 1 = true ∧ us = 201) ∧
    (∃ (us : Nat) (k : Fin 8) (s : State), us = 200 ∧ bit (fanOf s.dev k.val).cfg 1 = true) ∧
    (∃ (k : Fin 8) (s : State), bit (fanOf s.dev k.val).cfg 1 = true ∧ (fanOf s.dev k.val).duty ≠ 0) ∧
    (∃ (k : Fin 8) (s : State), bit (fanOf s.dev k.val).cfg 1 = false ∧ (fanOf s.dev k.val).duty = 0) :=
  ⟨⟨15, 7, at0 up, by decide +kernel⟩,
    ⟨15, waitsFor (aoId 15) F32.one 0, ao15, got (aoId 15) F32.one ao15, by unfold Through; decide +kernel, by decide +kernel⟩,
    ⟨15, waitsFor (tgId 15) F32.one 0, tg15 1#32 none, got (tgId 15) F32.one (tg15 1#32 none), by unfold Through; decide +kernel,
      by decide +kernel⟩,
    ⟨7, waitsFor (fanId 7) F32.one 0, fan7, got (fanId 7) F32.one fan7, by unfold Through; decide +kernel, by decide +kernel⟩,
    ⟨15, at0 ao15, by decide +kernel⟩, ⟨15, 7, 47, at0 up, by decide +kernel⟩, ⟨7, at0 fan7, by decide +kernel⟩,
    ⟨47, at0 (normal 47 (inChan { st := 3 })), by decide +kernel⟩, ⟨15, at0 (tg15 1#32 none), by decide +kernel⟩,
    fun rising => ⟨15, at0 up, by revert rising; decide +kernel⟩, fun rising => ⟨15, at0 (tg15 5#32 none), by revert rising; decide +kernel⟩,
    fun rising x h => ⟨15, at0 (tg15 1#32 (some (F32.ofNat x.1))), by unfold Steady; revert rising; revert x; decide +kernel⟩,
    fun rising => ⟨15, at0 (tg15 3#32 none), by unfold Steady; revert rising; decide +kernel⟩,
    ⟨7, 201, at0 fan7, by decide +kernel⟩, ⟨200, 7, at0 fan7, by decide +kernel⟩,
    ⟨7, at0 fan7, by decide +kernel⟩, ⟨7, at0 up, by decide +kernel⟩⟩

/-- Bus 3 with sensor 15 enabled at address 0x40, a trigger of `trig` bytes, two response bytes. -/
def sb3 (trig phase retry : Nat) : Bus :=
  { cfg := 1#32, templates := [(15, [0xC0000000#32, wd (trig * 16777216), 0x02000000#32])], phase := [(15, phase)]
    retry := [(15, retry)] }
def bus3 (trig phase retry : Nat) : Dev := setBus 3 (sb3 trig phase retry) up

/-- The sensor is enabled on an enabled bus. -/
abbrev Polled (k : Fin 4) (i : Fin 16) (s : State) : Prop :=
  bit (busOf s.dev k.val).cfg 0 = true ∧ sbEn (busOf s.dev k.val) i.val = true

theorem witness_SensorBuses :
    (∃ (k : Fin 4) (i : Fin 16) (s : State), ¬ Polled k i s ∧ Tab.get 0 (busOf s.dev k.val).phase i.val = 0 ∧
      Tab.get 0 (busOf s.dev k.val).retry i.val = 0) ∧
    (∀ n ∈ [0, 3], ∃ (k : Fin 4) (i : Fin 16) (s : State), Polled k i s ∧ Tab.find (busOf s.dev k.val).wait i.val = none ∧
      busBusy (busOf s.dev k.val) = false ∧ Tab.get 0 (busOf s.dev k.val).phase i.val = 0 ∧
      fld (sbWord (busOf s.dev k.val) i.val 1) 31 24 = n) ∧
    (∀ ph ∈ [1, 2], ∃ (k : Fin 4) (i : Fin 16) (s : State), Polled k i s ∧ Tab.find (busOf s.dev k.val).wait i.val = none ∧
      Tab.get 0 (busOf s.dev k.val).phase i.val = ph) ∧
    (∃ (k : Fin 4) (i : Fin 16) (s : State), Polled k i s ∧ Tab.find (busOf s.dev k.val).wait i.val = some 0) ∧
    (∀ b : Bool, ∃ (k : Fin 4) (i : Fin 16) (s : State), Tab.get 0 (busOf s.dev k.val).phase i.val = 1 ∧
      busBusy (busOf s.dev k.val) = b) ∧
    (∀ n ∈ [0, 3], ∃ (k : Fin 4) (i : Fin 16) (s : State), Tab.get 0 (busOf s.dev k.val).retry i.val = 1 ∧ Polled k i s ∧
      busBusy (busOf s.dev k.val) = false ∧ Tab.get 0 (busOf s.dev k.val).phase i.val = 0 ∧
      fld (sbWord (busOf s.dev k.val) i.val 1) 31 24 = n) ∧
    (∀ ph ∈ [0, 1, 2], ∃ (k : Fin 4) (i : Fin 16) (st : Stamp) (s : State),
      Tab.get 0 (busOf (arriveField st (fresh s)) k.val).phase i.val = ph) ∧
    (∀ crc ∈ [0, 1], ∃ (k : Fin 4) (i : Fin 16) (st : Stamp) (bs : List Byte) (s : State),
      let b := busOf (arriveField st (fresh s)) k.val
      Tab.get 0 b.phase i.val = 2 ∧ bs.length = fld (sbWord b i.val 2) 31 24 ∧ fld (sbWord b i.val 2) 23 16 = crc ∧
      (sbPoints b i.val).length = 1 ∧ (crc = 1 → sbCrcOk bs = true)) ∧
    (∃ (k : Fin 4) (i : Fin 16) (st : Stamp) (bs : List Byte) (s : State),
      let b := busOf (arriveField st (fresh s)) k.val
      Tab.get 0 b.phase i.val = 2 ∧ bs.length ≠ fld (sbWord b i.val 2) 31 24) ∧
    (∃ (k : Fin 4) (i : Fin 16) (st : Stamp) (s : State),
      let b := busOf (arriveField st (fresh s)) k.val
      Tab.get 0 b.phase i.val = 1 ∧ Tab.get 0 b.failRun i.val + 1 = sbFailN b i.val ∧ (sbPoints b i.val).length = 1) :=
  ⟨⟨3, 15, at0 up, by decide +kernel⟩, fun n h => ⟨3, 15, at0 (bus3 n 0 0), by revert n; decide +kernel⟩,
    fun n h => ⟨3, 15, at0 (bus3 0 n 0), by revert n; decide +kernel⟩,
    ⟨3, 15, at0 (setBus 3 { sb3 0 0 0 with wait := [(15, 0)] } up), by decide +kernel⟩,
    fun b => ⟨3, 15, at0 (setBus 3 { sb3 1 1 0 with phase := if b then [(14, 2), (15, 1)] else [(15, 1)] } up), by
      cases b <;> decide +kernel⟩,
    fun n h => ⟨3, 15, at0 (bus3 n 0 1), by revert n; decide +kernel⟩,
    fun n h => ⟨3, 15, ⟨0#32, 0#16⟩, at0 (bus3 0 n 0), by revert n; decide +kernel⟩,
    fun n h => ⟨3, 15, ⟨0#32, 0#16⟩, if n = 1 then [0xBE#8, 0xEF#8, 0x92#8] else [1#8, 2#8],
      at0 (setBus 3 { sb3 0 2 0 with templates := [(15, [0xC0000000#32, 0#32, wd ((2 + n) * 16777216 + n * 65536), 0#32,
        0x80000000#32, 8191#32])] } up), by revert n; decide +kernel⟩,
    ⟨3, 15, ⟨0#32, 0#16⟩, [1#8], at0 (bus3 0 2 0), by decide +kernel⟩,
    ⟨3, 15, ⟨0#32, 0#16⟩, at0 (setBus 3 { sb3 1 1 0 with failRun := [(15, 2)], templates := [(15, [0xC0000000#32, 0#32,
      0x02000000#32, 0#32, 0x80000000#32, 8191#32])] } up), by decide +kernel⟩⟩

/-- Commands on AO 15 and UI 47, and a release. -/
def onAo : HostCmd := withWords { cmd with target := 0x0100010F#32 } [1#32]
def onUi : HostCmd := { cmd with target := 0x0100002F#32 }

/-- An IO_CONFIG of AO 15 whose buffer is as long as it should be, and one whose values are in range. -/
abbrev SetsAo (c : HostCmd) : Prop :=
  ioTarget c.target = some (.ao 15) ∧ bit c.p0 0 = false ∧ c.count = 0#32 ∧ ioLen (.ao 15) (trim c) = (trim c).bufLen
abbrev GoodAo (c : HostCmd) : Prop := SetsAo c ∧ ioFault (.ao 15) (trim c) = none

theorem witness_IoCommands :
    Case 0x0501 (fun c _ => ioTarget c.target = none) ∧
    Case 0x0501 (fun c s => ioTarget c.target = some (.ao 15) ∧ bit c.p0 0 = true ∧
      (releaseCheck [ioRes (.ao 15)] ownHost s.dev).isSome = true) ∧
    Case 0x0501 (fun c s => ioTarget c.target = some (.ao 15) ∧ bit c.p0 0 = true ∧
      releaseCheck [ioRes (.ao 15)] ownHost s.dev = none) ∧
    Case 0x0501 (fun c _ => SetsAo c ∧ (ioFault (.ao 15) (trim c)).isSome = true) ∧
    Case 0x0501 (fun c s => GoodAo c ∧ (ioConflict (.ao 15) (trim c) s.dev).isSome = true) ∧
    Case 0x0501 (fun c s => GoodAo c ∧ ioConflict (.ao 15) (trim c) s.dev = none ∧
      (claimSets (ioClaims (.ao 15) (trim c)) (fresh s)).1.isSome = true) ∧
    Case 0x0501 (fun c s => GoodAo c ∧ ioConflict (.ao 15) (trim c) s.dev = none ∧
      (claimSets (ioClaims (.ao 15) (trim c)) (fresh s)).1 = none ∧
      (ioWrite (.ao 15) (trim c) (claimSets (ioClaims (.ao 15) (trim c)) (fresh s)).2).isSome = true) ∧
    Case 0x0501 (fun c _ => ioTarget c.target = some (.bus 3) ∧ bit c.p0 0 = false ∧ c.count = 16#32 ∧
      ioLen (.bus 3) (trim c) ≤ (trim c).bufLen) ∧
    Case 0x0502 (fun c _ => ioTarget c.target = some (.ao 15)) ∧
    (∀ m ∈ [0, 1, 4, 5, 6], Case 0x0502 (fun c s => ioTarget c.target = some (.ui 47) ∧ uiMode (uiOf s.dev 47) = m ∧
      retired s.dev (unitAdc (uiAdc 47)) = false ∧
      (requestUrgent (uiAdc 47) (.readNow 47 (some (trim c))) (fresh s)).isSome = true)) ∧
    Case 0x0502 (fun c s => ioTarget c.target = some (.ui 47) ∧ uiMode (uiOf s.dev 47) = 1 ∧
      retired s.dev (unitAdc (uiAdc 47)) = false ∧
      requestUrgent (uiAdc 47) (.readNow 47 (some (trim c))) (fresh s) = none) ∧
    Case 0x0502 (fun c s => ioTarget c.target = some (.ui 47) ∧ uiMode (uiOf s.dev 47) = 1 ∧
      retired s.dev (unitAdc (uiAdc 47)) = true) ∧
    Case 0x0505 (fun c _ => c.target.toNat = 48) ∧ Case 0x0505 (fun c _ => c.target.toNat = 47) :=
  ⟨case cmd up (by decide +kernel) (by decide +kernel),
    case { onAo with p0 := 1#32 } (claimAll [resPin 1 15] 3#32 up) (by decide +kernel) (by decide +kernel),
    case { onAo with p0 := 1#32 } up (by decide +kernel) (by decide +kernel),
    case (withWords onAo [0xF0000000#32]) up (by decide +kernel) (by decide +kernel),
    case onAo { up with sec := { envelopes := [(aoId 15, ⟨F32.one, F32.ofNat 2, F32.zero⟩)] } } (by decide +kernel) (by decide +kernel),
    case onAo (claimAll [resPin 1 15] 3#32 up) (by decide +kernel) (by decide +kernel),
    case onAo up (by decide +kernel) (by decide +kernel),
    case (room { cmd with target := 0x01000503#32, count := 16#32 } 4096) up (by decide +kernel) (by decide +kernel),
    case onAo up (by decide +kernel) (by decide +kernel),
    fun m h => ⟨onUi, host 0x0502 onUi (inUi 47 { cfg := wd m }), ready_of (by revert m; decide +kernel),
      by revert m; decide +kernel⟩,
    case onUi (setAdc 1 { urgents := List.replicate 8 (.selfTest, ⟨0#32, 0#16⟩), run := .urgent .selfTest none }
      (inUi 47 { cfg := 1#32 })) (by decide +kernel) (by decide +kernel),
    case onUi { inUi 47 { cfg := 1#32 } with integ := { retired := [unitAdc 1] } } (by decide +kernel) (by decide +kernel),
    case { cmd with target := 48#32 } up (by decide +kernel) (by decide +kernel),
    case { cmd with target := 47#32 } up (by decide +kernel) (by decide +kernel)⟩

/-- Port `p` alone, open with an image. -/
def portImage (ws : List Word) : List Byte :=
  let b := (wordsBytes ws ++ List.replicate 60 0#8).take 60
  b ++ wordBytes (crc32c b)
def inPort (p : Nat) (x : Port) : Dev := setPort p x up

/-- Ethernet with these service bits, raw frames to 16 buffers at 0x40000 and ring 1. -/
def ether (services : Nat) : Port :=
  { isOpen := true, proto := 1
    image := portImage [wd (0x01100000 + services), 0#32, 0#32, 0#32, 0#32, 0#32, 0#32, 0#32, 0#32, 0#32, 0x40000#32, 0#32, 0x10010#32] }
def frame0 (kind : FrameKind) : Frame := { kind := kind, len := 1522, vid := none, stamp := ⟨0#32, 0#16⟩, data := [] }

/-- An ARP request for 192.168.0.1. -/
def arp0 : Frame :=
  { frame0 .arp with data := List.replicate 21 0#8 ++ [1#8] ++ List.replicate 16 0#8 ++ [192#8, 168#8, 0#8, 1#8] }

/-- The port takes the frame, at its arrival. -/
abbrev Passes (p : Fin 24) (f : Frame) (s : State) : Prop :=
  let x := portOf (arrive f.stamp (fresh s)) p.val
  x.isOpen = true ∧ (x.proto = 1 → f.len ≤ 1522 ∧ vlanOk x f = true)

theorem witness_PortFrames :
    (∃ (p : Fin 24) (f : Frame) (s : State), (portOf (arrive f.stamp (fresh s)) p.val).isOpen = false) ∧
    (∀ n ∈ [255, 256], ∃ (p : Fin 24) (f : Frame) (s : State), Passes p f s ∧
      (let x := portOf (arrive f.stamp (fresh s)) p.val
       serves x f.kind = true ∧ x.coreQ.any servedAtOnce = false ∧ servedAtOnce f = false ∧ x.coreQ.length = n)) ∧
    (∃ (p : Fin 24) (f : Frame) (s : State), Passes p f s ∧
      (let x := portOf (arrive f.stamp (fresh s)) p.val
       serves x f.kind = true ∧ x.coreQ = [] ∧ x.held = true)) ∧
    (∃ (p : Fin 24) (f : Frame) (s : State), Passes p f s ∧
      (let x := portOf (arrive f.stamp (fresh s)) p.val
       let b := f.data.drop (if f.vid.isSome then 18 else 14)
       serves x f.kind = true ∧ x.coreQ = [] ∧ f.kind = .arp ∧ x.held = false ∧ x.addrOk = true ∧ byteAt b 7 = 1 ∧
         be32 b 24 = x.ip4)) ∧
    (∀ q ∈ [(false, false, 255), (true, false, 0), (false, true, 0), (false, false, 256)],
      ∃ (p : Fin 24) (f : Frame) (s : State), Passes p f s ∧
      (let d := arrive f.stamp (fresh s)
       let x := portOf d p.val
       serves x f.kind = false ∧ imgService x.image 6 = true ∧ x.qFwd = q.1 ∧ d.hif.sluice = q.2.1 ∧ x.rawQ.length = q.2.2)) ∧
    (∃ (p : Fin 24) (s : State), (portOf (freeBufs p.val (fresh s)) p.val).rawQ = []) ∧
    (∃ (p : Fin 24) (g : Frame) (s : State), (portOf (freeBufs p.val (fresh s)) p.val).rawQ = [g] ∧
      (portOf (freeBufs p.val (fresh s)) p.val).isOpen = true ∧
      (∀ u ∈ (portOf (freeBufs p.val (fresh s)) p.val).usedBufs, u.1 ≠ (portOf (freeBufs p.val (fresh s)) p.val).nextBuf) ∧
      eventRoom (freeBufs p.val (fresh s)) (rawCq (portOf (freeBufs p.val (fresh s)) p.val).image) = true ∧
      canWrite (freeBufs p.val (fresh s)) (rawBase (portOf (freeBufs p.val (fresh s)) p.val).image +
        2048 * (portOf (freeBufs p.val (fresh s)) p.val).nextBuf) 2048 = true) ∧
    (∃ p : Fin 24, p.val = 7) ∧ (∃ p : Fin 24, p.val = 8) ∧
    (∃ (p : Fin 24) (s : State), (portOf s.dev p.val).isOpen = true ∧ imgService (portOf s.dev p.val).image 4 = true ∧
      (portOf s.dev p.val).held = false) ∧
    (∀ b : Bool, ∃ (k : Fin 16) (s : State), retired s.dev (unitCore k.val) = b) ∧
    (∃ (p : Fin 24) (k : Fin 16) (s : State), retired s.dev (unitCore k.val) = false ∧ (portOf s.dev p.val).isOpen = true ∧
      (portOf s.dev p.val).core = k.val) :=
  ⟨⟨23, frame0 .other, at0 up, by decide +kernel⟩,
    fun n h => ⟨7, frame0 .tcp502, at0 (inPort 7 { ether 4 with coreQ := List.replicate n (frame0 .tcp502) }), by
      revert n; decide +kernel⟩,
    ⟨7, frame0 .arp, at0 (inPort 7 { ether 0 with held := true }), by decide +kernel⟩,
    ⟨7, arp0, at0 (inPort 7 { ether 0 with addrOk := true, ip4 := 0xC0A80001#32 }), by decide +kernel⟩,
    fun q h => ⟨7, frame0 .other, at0 (setPort 7 { ether 64 with qFwd := q.1, rawQ := List.replicate q.2.2 (frame0 .other) }
      { up with hif := { up.hif with sluice := q.2.1 } }), by revert q; decide +kernel⟩,
    ⟨7, at0 (inPort 7 (ether 64)), by decide +kernel⟩,
    ⟨7, frame0 .other, at0 (inPort 7 { ether 64 with rawQ := [frame0 .other] }), by decide +kernel⟩,
    ⟨7, rfl⟩, ⟨8, rfl⟩, ⟨7, at0 (inPort 7 (ether 16)), by decide +kernel⟩,
    fun b => ⟨15, at0 { up with integ := { retired := if b then [unitCore 15] else [] } }, by cases b <;> decide +kernel⟩,
    ⟨7, 15, at0 (inPort 7 { ether 0 with core := 15 }), by decide +kernel⟩⟩

/-- A Modbus client entry of port 7 for point 8191, two registers of IEEE 754, while a poll waits or not; a device with
one entry. -/
def mapEntry (polling : Bool) (due : Option Stamp) : MapEntry :=
  { w0 := 0x33801FFF#32, w1 := 0x01C00000#32, w2 := 0#32, w3 := F32.one, polling := polling, due := due }
def withMap (services : Nat) (e : MapEntry) : Dev :=
  let d := setPort 7 (ether services) points
  { d with ports := { d.ports with map := [(1048575, e)] } }
def mapped (polling : Bool) (due : Option Stamp) : Dev := withMap 8 (mapEntry polling due)

/-- Point 8191 as analogue object 1, and in the Modbus table of unit 1 at address 7, as two registers or as one. -/
def objEntry : MapEntry := { w0 := 0x10001FFF#32, w1 := 1#32, w2 := 0#32, w3 := F32.one }
def srvEntry (format : Nat) : MapEntry :=
  { w0 := 0x20001FFF#32, w1 := 0x01C00007#32, w2 := wd (format * 16777216), w3 := F32.one }

/-- A server's port is open and its core answers. -/
abbrev Serves (p : Fin 24) (s : State) : Prop :=
  (portOf s.dev p.val).isOpen = true ∧ imgService (portOf s.dev p.val).image 2 = true ∧ (portOf s.dev p.val).held = false ∧
    s.dev.pe.testing = false
def noPipes (d : Dev) : Dev := { d with pe := { d.pe with p0 := false, p1 := false } }

theorem witness_ProtocolRequests :
    (∃ (p : Fin 24) (s : State), bacnetPort (portOf s.dev p.val) = false) ∧
    (∃ (p : Fin 24) (q : BacReq) (s : State), bacnetPort (portOf s.dev p.val) = true ∧ needsEngine q = true ∧
      s.dev.pe.testing = true) ∧
    (∃ (p : Fin 24) (q : BacReq) (s : State), bacnetPort (portOf s.dev p.val) = true ∧ needsEngine q = true ∧
      s.dev.pe.testing = false ∧ pipesServe s.dev = false) ∧
    (∀ b : Bool, ∃ (p : Fin 24) (s : State), bacnetPort (portOf s.dev p.val) = true ∧ bit s.dev.clk.ctrl 9 = b ∧
      portWaits (takeCore p.val [.udp47808, .tlsSc, .mstp] (fresh s)) p.val = false ∧ s.dev.pe.testing = false ∧
      pipesServe s.dev = true ∧
      maxApdu (portOf (takeCore p.val [.udp47808, .tlsSc, .mstp] (fresh s)) p.val) = 1476 ∧ objectOf s.dev 3 1 = none) ∧
    (∃ (p : Fin 24) (e : Nat × MapEntry) (v : Word) (s : State), bacnetPort (portOf s.dev p.val) = true ∧
      s.dev.pe.testing = false ∧ pipesServe s.dev = true ∧ objectOf s.dev 3 1 = some e ∧
      recOf s.dev (mapPoint e.2) = some plain ∧ checkOk (mapPoint e.2) plain = true ∧ s.dev.pe.upset = none ∧
      s.dev.pe.queue = [] ∧ s.dev.pe.deliveries = [] ∧ stageOf s.dev (mapPoint e.2) = none ∧
      isPredef (mapPoint e.2) = false ∧ guardedOf plain = false ∧ commandable plain = false ∧ outOfService plain = false ∧
      valueFits plain.kind (statesOf plain) v = true ∧ envelopeOf s.dev (mapPoint e.2) = none ∧
      deniedWrite s.dev (mapPoint e.2) none 16 = true) ∧
    (∃ (p : Fin 24) (s : State), (portOf s.dev p.val).isOpen = false) ∧
    (∃ (p : Fin 24) (r : ModReq) (s : State), Serves p s ∧ pipesServe s.dev = true ∧
      [1, 2, 3, 4, 5, 6, 15, 16].contains r.fc = false) ∧
    (∃ (p : Fin 24) (s : State), Serves p s ∧ pipesServe s.dev = false) ∧
    (∃ (p : Fin 24) (r : ModReq) (s : State), Serves p s ∧ pipesServe s.dev = true ∧ r.fc = 3 ∧ r.count = 1 ∧
      serverCover s.dev r.unit 3 r.addr = none) ∧
    (∀ k ∈ [0, 1], ∃ (p : Fin 24) (r : ModReq) (e : MapEntry) (s : State), Serves p s ∧ pipesServe s.dev = true ∧ r.fc = 3 ∧
      r.count = 1 ∧ serverCover s.dev r.unit 3 r.addr = some (e, k) ∧ mapFormat e = 0 ∧
      recOf s.dev (mapPoint e) = some plain ∧ checkOk (mapPoint e) plain = true) ∧
    (∃ (p : Fin 24) (r : ModReq) (e : MapEntry) (v : Half) (s : State), Serves p s ∧ pipesServe s.dev = true ∧ r.fc = 6 ∧
      r.values = [v] ∧ serverEntry s.dev r.unit 3 r.addr = some e ∧ entryRegs e = 1 ∧ recOf s.dev (mapPoint e) = some plain ∧
      commandable plain = false ∧ guardedOf plain = false) ∧
    (∃ (i : Nat) (s : State), Tab.find s.dev.ports.map i = none) ∧
    (∃ (i : Nat) (e : MapEntry) (s : State), Tab.find s.dev.ports.map i = some e ∧ mapRole e = 3 ∧
      modbusClient (portOf s.dev (mapPort e)) = true ∧ e.polling = false) ∧
    (∃ (i : Nat) (e : MapEntry) (s : State), Tab.find s.dev.ports.map i = some e ∧ mapRole e ≠ 3) ∧
    (∃ (i : Nat) (e : MapEntry) (rs : List Half) (st u : Stamp) (s : State), Tab.find s.dev.ports.map i = some e ∧
      e.polling = true ∧ NoneDue false st s ∧ e.due = some u ∧ later st u = false ∧
      decodeRegs e rs = some F32.one ∧ recOf s.dev (mapPoint e) = some plain) ∧
    (∀ b : Bool, ∃ (i : Nat) (e : MapEntry) (u : Stamp) (s : State), Tab.find s.dev.ports.map i = some e ∧
      e.polling = true ∧ u = e.due.getD (now s.dev) ∧ s.pending.any (replyIn (fresh s) i u) = b ∧ NoneDue true u s) :=
  ⟨⟨23, at0 up, by decide +kernel⟩,
    ⟨7, .read [] 0, at0 { inPort 7 (ether 1) with pe := { up.pe with testing := true } }, by decide +kernel⟩,
    ⟨7, .read [] 0, at0 (noPipes (inPort 7 (ether 1))), by decide +kernel⟩,
    fun b => ⟨7, at0 { inPort 7 (ether 1) with clk := { ctrl := setBit 0#32 9 b } }, by cases b <;> decide +kernel⟩,
    ⟨7, (1048575, objEntry), F32.one, at0 (withMap 1 objEntry), by decide +kernel⟩,
    ⟨23, at0 up, by decide +kernel⟩,
    ⟨7, ⟨1, 7, 0, 1, []⟩, at0 (inPort 7 (ether 4)), by decide +kernel⟩,
    ⟨7, at0 (noPipes (inPort 7 (ether 4))), by decide +kernel⟩,
    ⟨7, ⟨1, 3, 0, 1, []⟩, at0 (inPort 7 (ether 4)), by decide +kernel⟩,
    fun k h => ⟨7, ⟨1, 3, 7 + k, 1, []⟩, srvEntry 0, at0 (withMap 4 (srvEntry 0)), by revert k; decide +kernel⟩,
    ⟨7, ⟨1, 6, 7, 1, [5]⟩, srvEntry 2, 5, at0 (withMap 4 (srvEntry 2)), by decide +kernel⟩,
    ⟨1048575, at0 up, rfl⟩, ⟨1048575, mapEntry false none, at0 (mapped false none), by decide +kernel⟩,
    ⟨1048575, objEntry, at0 (withMap 1 objEntry), by decide +kernel⟩,
    ⟨1048575, mapEntry true (some ⟨0#32, 9#16⟩), [0x3F80#16, 0#16], ⟨0#32, 9#16⟩, ⟨0#32, 9#16⟩,
      at0 (mapped true (some ⟨0#32, 9#16⟩)), rfl, rfl, by unfold NoneDue; decide +kernel, rfl, by decide +kernel⟩,
    fun b => ⟨1048575, mapEntry true (some ⟨0#32, 9#16⟩), ⟨0#32, 9#16⟩,
      { dev := mapped true (some ⟨0#32, 9#16⟩)
        pending := if b then [.modbusPollReply 1048575 [0x3F80#16, 0#16] ⟨0#32, 9#16⟩] else [] },
      rfl, rfl, rfl, by cases b <;> decide +kernel, by unfold NoneDue; cases b <;> decide +kernel⟩⟩

def onPort (p : Nat) : HostCmd := { cmd with target := wd p }
def opening (w0 : Word) : HostCmd := withBytes (onPort 7) (portImage [w0, 0x140200#32])

/-- An image of BACnet on Ethernet with `n` map entries: point 8191 as analogue object 1. -/
def mapImage : List Byte := portImage [0x01100001#32, 0x140200#32] ++ wordsBytes [0x10001FFF#32, 1#32, 0#32, F32.one]
def opensMap : HostCmd := { withBytes (onPort 7) mapImage with count := 1#32 }

/-- An image of this version whose check verifies, for port 7. -/
abbrev Opens (c : HostCmd) : Prop :=
  c.target.toNat = 7 ∧ 64 ≤ (trim c).bufLen ∧ byteAt (trim c).buf 3 = 1 ∧
    crc32c ((trim c).buf.take 0x3C) = wordAt (trim c).buf 0x3C

theorem witness_PortCommands :
    (∀ op ∈ [0x0602, 0x0604, 0x0605], Case op (fun c s => c.target.toNat = 23 ∧ (trim c).bufLen = 64 ∧
      (portOf s.dev c.target.toNat).isOpen = false)) ∧
    Case 0x0601 (fun c _ => c.target.toNat = 24) ∧
    Case 0x0601 (fun c _ => c.target.toNat = 7 ∧ (trim c).bufLen = 64 ∧ byteAt (trim c).buf 3 = 1 ∧
      crc32c ((trim c).buf.take 0x3C) ≠ wordAt (trim c).buf 0x3C) ∧
    Case 0x0601 (fun c s => Opens c ∧ (portOf s.dev c.target.toNat).isOpen = true) ∧
    Case 0x0601 (fun c s => Opens c ∧ (portOf s.dev c.target.toNat).isOpen = false ∧
      imageFault c.target.toNat (trim c).buf (fresh s) = some 0) ∧
    (∀ b : Bool, Case 0x0601 (fun c s => Opens c ∧ (portOf s.dev c.target.toNat).isOpen = false ∧
      imageFault c.target.toNat (trim c).buf (fresh s) = none ∧ c.count = 0#32 ∧
      openConflict c.target.toNat (trim c).buf (fresh s) = b ∧ (coreInService s.dev).isSome = true)) ∧
    Case 0x0601 (fun c s => Opens c ∧ (portOf s.dev c.target.toNat).isOpen = false ∧
      imageFault c.target.toNat (trim c).buf (fresh s) = none ∧ c.count.toNat = 1 ∧
      openConflict c.target.toNat (trim c).buf (fresh s) = false ∧ (coreInService s.dev).isSome = true ∧
      imgBacnet (trim c).buf = true ∧ (∀ q, q < 24 → (portOf s.dev q).isOpen = false) ∧ (trim c).bufLen = 80 ∧
      mapFault ((List.range 1).map (mapEntryAt (trim c).buf)) (fresh s) = none ∧ 1 ≤ subsFree (dropMapSubs (fresh s))) ∧
    Case 0x0602 (fun c s => c.target.toNat = 7 ∧ (portOf s.dev c.target.toNat).isOpen = true) ∧
    (∀ n ∈ [60, 1518], Case 0x0603 (fun c s => c.target.toNat = 7 ∧ (trim c).bufLen = n ∧
      (portOf s.dev c.target.toNat).isOpen = false)) ∧
    (∀ q : Bool, ∀ h : Bool, Case 0x0603 (fun c s => c.target.toNat = 7 ∧ (trim c).bufLen = 60 ∧
      (portOf s.dev c.target.toNat).isOpen = true ∧ (portOf s.dev c.target.toNat).qTx = q ∧
      (portOf s.dev c.target.toNat).held = h)) ∧
    Case 0x0603 (fun c _ => c.target.toNat = 8) :=
  ⟨fun op h => ⟨room (onPort 23) 64, host op (room (onPort 23) 64) up, ready_of (by revert op; decide +kernel), rfl, rfl,
      (by decide +kernel : (portOf up 23).isOpen = false)⟩,
    case (onPort 24) up (by decide +kernel) (by decide +kernel),
    case (withWords (onPort 7) (0x01000000#32 :: List.replicate 15 0#32)) up (by decide +kernel) (by decide +kernel),
    case (opening 0x01100000#32) (inPort 7 (ether 0)) (by decide +kernel) (by decide +kernel),
    case (opening 0x01000000#32) up (by decide +kernel) (by decide +kernel),
    fun b => case (opening 0x01100001#32) (if b then inPort 6 { ether 1 with image := portImage [0x01100001#32, 0#32, 0#32,
      0#32, 0#32, 0#32, 1#32] } else up) (by cases b <;> decide +kernel) (by cases b <;> decide +kernel),
    case opensMap points (by decide +kernel) (by decide +kernel),
    case (onPort 7) (inPort 7 (ether 0)) (by decide +kernel) (by decide +kernel),
    case_all (fun n => room (onPort 7) n) up (by decide +kernel),
    fun q h => ⟨room (onPort 7) 60, host 0x0603 (room (onPort 7) 60) (inPort 7 { ether 0 with qTx := q, held := h }),
      ready_of (by cases q <;> cases h <;> decide +kernel), by cases q <;> cases h <;> decide +kernel⟩,
    case (onPort 8) up (by decide +kernel) (by decide +kernel)⟩

/-- Trunk 15 open on port 23, with device 5 entered there or not; the same trunk on T1S port 7. -/
def trunk15 (devs : Tab KDevice) : Dev := { inPort 23 { isOpen := true, proto := 4 } with kw := { devices := devs } }
def device (v : KDevice) : Dev := trunk15 [(5, v)]
def device5 : KDevice := { trunk := 15, ver := 1, cls := 0, model := 0, serial := 0, listings := [] }
def t1s15 : Dev := inPort 7 (ether 128)

/-- A frame of device 5 to this device, with its bytes; one as it waits in flight. -/
def kframe (type : Nat) (payload : List Byte) : KFrame :=
  { rank := 0, dst := 0xFFF1, type := type, ver := 1, ackReq := false, seq := 9, retry := false, payload := payload
    claim := 0#16, stamp := none, points := [] }
def kbytes (f : KFrame) : List Byte := frameBytes 5 ⟨0#32, 0#16⟩ 0#16 f
def helloOf (n : Nat) : KFrame := kframe tHello ([1#8] ++ List.replicate 7 0#8 ++ [BitVec.ofNat 8 n, 0#8] ++ List.replicate (4 * n) 0#8)
def valueOf (n : Nat) : KFrame := kframe tValue ((List.range n).flatMap fun _ => bytesLE 8191 4 ++ List.replicate 8 0#8)
def diagOf (code : Nat) : KFrame := kframe tDiag (BitVec.ofNat 8 code :: List.replicate 7 0#8)
def flying (resends : Nat) : KFlight := { frame := kframe tCommand [], resends := resends, due := some ⟨0#32, 9#16⟩ }
def flies (resends : Nat) : KDevice := { device5 with flight := some (flying resends) }
def at1 : Stamp := ⟨0#32, 1#16⟩

/-- The frame is received on trunk 15 at angle 1, and this holds of it and of the device then. -/
def Received (type : Nat) (b : List Byte) (s : State) (p : KIn → Dev → Bool) : Prop :=
  let r := receiveK 15 type b (arrive at1 (fresh s))
  r.1.any (fun f => p f r.2) = true

theorem witness_KwelaFrames :
    (∃ (st : Stamp) (s : State), kwServed (arrive st (fresh s)) 15 = false) ∧
    (∃ (b : List Byte) (st : Stamp) (s : State), kwServed (arrive st (fresh s)) 15 = true ∧ parseK b = none) ∧
    (∀ n ∈ [0, 9], ∃ (b : List Byte) (s : State), Received tHello b s fun f e => byteAt f.payload 8 == n &&
      !badHello f.payload && helloVerdict 15 f e == 0) ∧
    (∃ (b : List Byte) (s : State), Received tValue b s fun f e => (devOn e 15 f.src).any (fun v =>
      (List.range (f.len / 12)).all fun k => listsInput v (kRecord f.payload k).1) && repeated e f && f.len == 12) ∧
    (∀ n ∈ [1, 9], ∃ (b : List Byte) (s : State), Received tValue b s fun f e => (devOn e 15 f.src).any (fun v =>
      (List.range (f.len / 12)).all fun k => listsInput v (kRecord f.payload k).1) && !repeated e f && f.len == 12 * n) ∧
    (∃ (b : List Byte) (s : State), Received tValue b s fun f e => (devOn e 15 f.src).any (fun v =>
      !listsInput v (kRecord f.payload 0).1) && f.len == 12 && decide ((kRecord f.payload 0).1 < 8388608)) ∧
    (∃ (b : List Byte) (s : State), Received tAck b s fun f e => (answered 15 f at1 e).isNone) ∧
    (∃ (b : List Byte) (s : State), Received tAck b s fun f e => (answered 15 f at1 e).any (·.frame.points == [])) ∧
    (∃ (b : List Byte) (s : State), Received tDiag b s fun f _ => f.len == 7) ∧
    (∃ (b : List Byte) (s : State), Received tDiag b s fun f e => f.len == 8 && byteAt f.payload 0 == 1 &&
      (answered 15 f at1 e).isNone && !repeated e f && !retired e (kwCoreUnit e 15)) ∧
    (∀ x ∈ [(0, 0), (2, 0), (2, 2), (2, 3)], ∃ (b : List Byte) (s : State), Received tDiag b s fun f e => f.len == 8 &&
      byteAt f.payload 0 == x.1 && (answered 15 f at1 e).any fun g => g.frame.type == tCommand && g.resends == x.2) :=
  ⟨⟨at1, at0 up, by decide +kernel⟩, ⟨[], at1, at0 (trunk15 []), by decide +kernel⟩,
    fun n h => ⟨kbytes (helloOf n), at0 (trunk15 []), by unfold Received; revert n; decide +kernel⟩,
    ⟨kbytes { valueOf 1 with retry := true }, at0 (device { device5 with lastSeq := some 9, listings := [(8191, false)] }), by
      unfold Received; decide +kernel⟩,
    fun n h => ⟨kbytes (valueOf n), at0 (device { device5 with listings := [(8191, false)] }), by
      unfold Received; revert n; decide +kernel⟩,
    ⟨kbytes (valueOf 1), at0 (device device5), by unfold Received; decide +kernel⟩,
    ⟨kbytes (kframe tAck []), at0 (device device5), by unfold Received; decide +kernel⟩,
    ⟨kbytes (kframe tAck []), at0 (device (flies 0)), by unfold Received; decide +kernel⟩,
    ⟨kbytes (kframe tDiag (List.replicate 7 0#8)), at0 (device device5), by unfold Received; decide +kernel⟩,
    ⟨kbytes (diagOf 1), at0 (device device5), by unfold Received; decide +kernel⟩,
    fun x h => ⟨kbytes (diagOf x.1), at0 (device (flies x.2)), by unfold Received; revert x; decide +kernel⟩⟩

def scan0 (slot : Nat) : KScan :=
  { slot := slot, due := ⟨0#32, 9#16⟩, before := ⟨0#32, 0#16⟩, overruns := 0, collisions := 0, found := [], op := 3 }
def scanning (slot : Nat) : Dev := setTrunk 15 { scan := some (scan0 slot) } (trunk15 [])

theorem witness_KwelaTimers :
    (∃ s : State, kwOpen s.dev 15 = true ∧ nextFrame s.dev 15 = none) ∧
    (∀ p ∈ [7, 23], ∃ s : State, kwPort s.dev 15 = some p ∧ nextFrame s.dev 15 = some (kframe tAck [])) ∧
    (∃ s : State, kwPort s.dev 15 = none ∧ devOn s.dev 15 5 = none ∧ (trunkOf s.dev 15).scan = none) ∧
    (∃ (v : KDevice) (x : Delivery) (s : State), (kwPort s.dev 15).isSome = true ∧ devOn s.dev 15 5 = some v ∧
      v.silent = false ∧ s.dev.pe.deliveries = [] ∧ s.dev.kw.pendingOut = [x] ∧ (x.id, true) ∈ v.listings) ∧
    (∃ s : State, devOn s.dev 15 5 = some device5 ∧ device5.flight = none ∧ device5.silent = false) ∧
    (∀ n ∈ [0, 2, 3], ∃ s : State, devOn s.dev 15 5 = some (flies n) ∧ (flying n).due = some ⟨0#32, 9#16⟩ ∧
      (flying n).resends = n ∧ s.pending.any (answerIn (fresh s) 15 5) = false ∧ NoneDue true ⟨0#32, 9#16⟩ s) ∧
    (∃ s : State, devOn s.dev 15 5 = some (flies 0) ∧ s.pending.any (answerIn (fresh s) 15 5) = true) ∧
    (∃ (v : KDevice) (s : State), devOn s.dev 15 5 = some v ∧ v.silent = true) ∧
    (∀ n ∈ [254, 255], ∃ s : State, (trunkOf s.dev 15).scan = some (scan0 n) ∧ NoneDue true (scan0 n).due s ∧
      (Tab.find s.dev.lop.slots (scan0 n).op).map (·.st) ≠ some 3) ∧
    (∃ s : State, (trunkOf s.dev 15).scan = some (scan0 256) ∧ NoneDue true (scan0 256).due s) ∧
    (∃ s : State, (trunkOf s.dev 15).scan = some (scan0 0) ∧ NoneDue true (scan0 0).due s ∧
      (Tab.find s.dev.lop.slots (scan0 0).op).map (·.st) = some 3) :=
  ⟨⟨at0 (trunk15 []), by decide +kernel⟩,
    fun p h => ⟨at0 (setTrunk 15 { queue := [kframe tAck []] } (if p = 7 then t1s15 else trunk15 [])), by
      revert p; decide +kernel⟩,
    ⟨at0 up, by decide +kernel⟩,
    ⟨{ device5 with listings := [(8191, true)] }, waitsFor 8191 F32.one 0,
      at0 { trunk15 [] with kw := { devices := [(5, { device5 with listings := [(8191, true)] })]
                                    pendingOut := [waitsFor 8191 F32.one 0] } }, by decide +kernel⟩,
    ⟨at0 (device device5), by decide +kernel⟩,
    fun n h => ⟨at0 (device (flies n)), by unfold NoneDue; revert n; decide +kernel⟩,
    ⟨{ dev := device (flies 0), pending := [.ack 15 (kbytes (kframe tAck [])) at1] }, by decide +kernel⟩,
    ⟨{ device5 with silent := true }, at0 (device { device5 with silent := true }), by decide +kernel⟩,
    fun n h => ⟨at0 (scanning n), by unfold NoneDue; revert n; decide +kernel⟩,
    ⟨at0 (scanning 256), by unfold NoneDue; decide +kernel⟩,
    ⟨at0 { scanning 0 with lop := { slots := [(3, lop0 0x0606 3)] } }, by unfold NoneDue; decide +kernel⟩⟩

/-- Both clusters: cluster A of unit 1 with HEALTH 200 and a live claim, cluster B of unit 2 with these. -/
def claims (b : Track) (owner : Half) (unit : Nat) (chosen : Bool) : State :=
  at0 { up with belay := { a := { live := true, started := true, claim := 0xC801#16 }, b := b, owner := owner
                           ownerUnit := unit, chosen := chosen } }
def liveB : Track := { live := true, started := true, claim := 0xC802#16 }
def due9 : Stamp := ⟨0#32, 9#16⟩

/-- The heartbeat of cluster B at angle 1 comes in time and counts. -/
def Counts (s : State) : Prop :=
  NoneDue false at1 s ∧ (s.dev.belay.waiting.all fun u => !later at1 u) = true ∧
    ((track s.dev .b).due.all fun u => !later at1 u) = true ∧
    (track s.dev .b).withdrawn = false ∧ (track s.dev .b).stopped = false ∧ enginesGone s.dev .b = false

/-- The next miss of the cluster falls due, with no heartbeat of it waiting. -/
def Misses (c : Cluster) (n : Nat) (s : State) : Prop :=
  (track s.dev c).due = some due9 ∧ (track s.dev c).misses = n ∧ s.pending.any (heartbeatIn (· == c) due9) = false ∧
    NoneDue true due9 s

/-- An owner change waits for its refresh; the start wait runs. -/
def refreshing (held : Bool) : State :=
  at0 { up with belay := { refreshDue := some due9, stages := if held then [(0, 1)] else [] } }
def starting (chosen : Bool) : State := at0 { up with belay := { waiting := some due9, chosen := chosen } }

theorem witness_BelayClaims :
    (∃ s : State, (track s.dev .b).withdrawn = true ∧ NoneDue false at1 s ∧ s.dev.belay.waiting = none ∧
      (track s.dev .b).due = none) ∧
    (∃ s : State, Counts s ∧ s.dev.belay.chosen = false ∧ (track s.dev .a).started = false) ∧
    (∃ s : State, Counts s ∧ s.dev.belay.chosen = true ∧ ownerCluster s.dev = some .b ∧ (track s.dev .b).live = true ∧
      (track s.dev .b).claim = 0xC802#16 ∧ claimWord (track s.dev .b).health (prefOf s.dev .b) (unitOf s.dev .b) = 0xC802#16 ∧
      s.dev.belay.owner = 0xC802#16 ∧ rivalClaim s.dev .a ≤ (0xC802#16 : Half).toNat) ∧
    (∃ s : State, Counts s ∧ s.dev.belay.chosen = true ∧ ownerCluster s.dev = some .a ∧
      (liveClaim s.dev .a).toNat ≠ 0 ∧ (liveClaim s.dev .a).toNat <
        (claimWord (track s.dev .b).health (prefOf s.dev .b) (unitOf s.dev .b)).toNat) ∧
    (∃ s : State, (track s.dev .b).due = none) ∧
    (∃ s : State, (track s.dev .b).due = some due9 ∧ s.pending.any (heartbeatIn (· == .b) due9) = true) ∧
    (∀ n ∈ [0, 1, 3], ∃ s : State, Misses .b n s) ∧
    (∃ s : State, Misses .b 2 s ∧ (track s.dev .b).withdrawn = false ∧ s.dev.belay.chosen = true ∧
      ownerCluster s.dev = some .a ∧ (liveClaim s.dev .a).toNat ≠ 0 ∧ liveClaim s.dev .a = s.dev.belay.owner) ∧
    (∃ s : State, Misses .a 2 s ∧ (track s.dev .a).withdrawn = false ∧ s.dev.belay.chosen = true ∧
      ownerCluster s.dev = some .a ∧ (liveClaim s.dev .b).toNat = 0) ∧
    (∀ b : Bool, ∃ s : State, s.dev.belay.refreshDue = some due9 ∧ s.pending.any (ackIn due9) = false ∧ NoneDue true due9 s ∧
      (belayState s.dev == 1) = b) ∧
    (∃ s : State, s.dev.belay.refreshDue = none ∧ s.dev.belay.waiting = none) ∧
    (∀ b : Bool, ∃ s : State, s.dev.belay.waiting = some due9 ∧ s.dev.belay.chosen = b ∧
      s.pending.any (heartbeatIn (fun c => !(track s.dev c).started) due9) = false ∧ NoneDue true due9 s ∧
      (track s.dev .b).started = false) ∧
    Case 0x0806 (fun _ _ => True) := by
  refine ⟨⟨claims { withdrawn := true } 0#16 0 false, rfl, ?_, rfl, rfl⟩, ⟨at0 up, ?_, by decide +kernel⟩,
    ⟨claims liveB 0xC802#16 2 true, ?_, by decide +kernel⟩,
    ⟨claims {} 0xC801#16 1 true, ?_, by decide +kernel⟩, ⟨at0 up, rfl⟩,
    ⟨{ claims { due := some due9 } 0#16 0 false with pending := [.heartbeat .b 0#16 due9] }, rfl, by decide⟩,
    fun n h => ⟨claims { due := some due9, misses := n } 0#16 0 false, ?_⟩,
    ⟨claims { due := some due9, misses := 2 } 0xC801#16 1 true, ?_, by decide +kernel⟩,
    ⟨at0 { up with belay := { a := { live := true, due := some due9, misses := 2, claim := 0xC801#16 }, owner := 0xC801#16
                              ownerUnit := 1, chosen := true } }, ?_, by decide +kernel⟩,
    fun b => ⟨refreshing b, ?_⟩, ⟨at0 up, rfl, rfl⟩, fun b => ⟨starting b, ?_⟩, case cmd up (by decide +kernel) trivial⟩
  all_goals first
    | (unfold NoneDue; decide +kernel)
    | (unfold Counts NoneDue; decide +kernel)
    | (unfold Misses NoneDue; decide +kernel)
    | (unfold Misses NoneDue; revert n; decide +kernel)
    | (unfold NoneDue; cases b <;> decide +kernel)

/-- A device in pair mode, with the Rope link up or down. -/
def paired (p : Pair) : State :=
  at0 { trunk15 [] with pair := { p with enabled := true, witness := [23], hash := List.replicate 48 1#8 } }
def rope (crcOk : Bool) (hash : Byte) (lagMs : Nat) : RopeFrame :=
  { crcOk := crcOk, low := 0#16, high := 0#16, role := 2, hash := List.replicate 48 hash, stamp := ⟨0#32, 0#16⟩
    arrived := at1, lagMs := lagMs, items := [] }

/-- Cluster A holds a live claim. -/
def claiming (s : State) : State :=
  at0 { s.dev with belay := { s.dev.belay with a := { live := true, started := true, claim := 0xC801#16 } } }

/-- The beacon of the twin with claims 1 and 2, and a PAIR_CONFIG that shares point 9 with witness port 23. -/
def twinBeacon : List Byte :=
  frameBytes 0xFFF2 ⟨0#32, 0#16⟩ 0#16 { kframe tBeacon [1#8, 0#8, 2#8, 0#8, 3#8] with ver := 2, dst := 0xFFFF }
def pairing : HostCmd :=
  withWords cmd ([0x00000001#32, 0#32, 0xFFFFFF17#32, 1#32] ++ List.replicate 12 0#32 ++ [9#32])
def unpaired : Dev :=
  { trunk15 [] with pe := (levers {}).pe }

/-- What arrives at angle 1 comes before every expiry of pair mode; an expiry at angle 9 falls due, nothing to answer it
waiting. -/
def Early (s : State) : Prop :=
  NoneDue false at1 s ∧ (s.dev.pair.linkDue.all fun u => !later at1 u) = true ∧
    (s.dev.pair.heardDue.all fun u => !later at1 u) = true ∧ (s.dev.pair.searchDue.all fun u => !later at1 u) = true
def Lapses (p : Instr → Bool) (s : State) : Prop := s.pending.any p = false ∧ NoneDue true due9 s

theorem witness_PairMode :
    (∃ f : RopeFrame, f.crcOk = false) ∧
    (∃ (f : RopeFrame) (s : State), f.crcOk = true ∧ f.arrived = at1 ∧ Early s ∧ s.dev.pair.enabled = false) ∧
    (∃ (f : RopeFrame) (s : State), f.crcOk = true ∧ f.arrived = at1 ∧ Early s ∧ s.dev.pair.enabled = true ∧
      f.hash ≠ s.dev.pair.hash ∧ s.dev.pair.mismatch = false) ∧
    (∃ (f : RopeFrame) (s : State), f.crcOk = true ∧ f.arrived = at1 ∧ Early s ∧ s.dev.pair.enabled = true ∧
      f.hash = s.dev.pair.hash ∧ s.dev.pair.role = 2 ∧ s.dev.pair.linkUp = true ∧
      max f.low.toNat f.high.toNat ≤ (higherClaim s.dev).toNat) ∧
    (∀ n ∈ [50, 51], ∃ (f : RopeFrame) (s : State), f.crcOk = true ∧ f.arrived = at1 ∧ Early s ∧ s.dev.pair.enabled = true ∧
      f.hash = s.dev.pair.hash ∧ s.dev.pair.role = 3 ∧ f.items = [] ∧
      (higherClaim s.dev).toNat ≤ max f.low.toNat f.high.toNat ∧ f.lagMs = n) ∧
    (∃ (f : RopeFrame) (s : State), f.crcOk = true ∧ f.arrived = at1 ∧ Early s ∧ s.dev.pair.enabled = true ∧
      f.hash = s.dev.pair.hash ∧ s.dev.pair.role = 3 ∧ max f.low.toNat f.high.toNat < (higherClaim s.dev).toNat) ∧
    (∃ s : State, s.dev.pair.linkDue = none ∧ s.dev.pair.heardDue = none ∧ s.dev.pair.searchDue = none) ∧
    (∀ r ∈ [2, 3], ∃ s : State, s.dev.pair.linkDue = some due9 ∧ Lapses (linkIn due9) s ∧ s.dev.pair.enabled = true ∧
      s.dev.pair.role = r ∧ s.dev.pair.linkLost = false ∧ witnessOk (expire due9 (fresh s)) = true) ∧
    (∃ s : State, s.dev.pair.linkDue = some due9 ∧ Lapses (linkIn due9) s ∧ s.dev.pair.enabled = true ∧
      witnessOk (expire due9 (fresh s)) = false) ∧
    (∃ s : State, s.dev.pair.enabled = false) ∧
    (∃ s : State, s.dev.pair.enabled = true ∧ s.dev.pair.mismatch = false ∧ s.dev.pair.linkUp = true ∧ s.dev.pair.role = 2) ∧
    (∀ r ∈ [2, 3], ∃ s : State, s.dev.pair.enabled = true ∧ s.dev.pair.mismatch = false ∧ s.dev.pair.linkUp = false ∧
      s.dev.pair.role = r) ∧
    (∀ r ∈ [2, 3], ∃ s : State, s.dev.pair.heardDue = some due9 ∧ Lapses (twinIn (fresh s) due9) s ∧ s.dev.pair.enabled = true ∧
      s.dev.pair.role = r ∧ s.dev.pair.linkUp = false) ∧
    (∀ r ∈ [1, 2], ∃ s : State, s.dev.pair.searchDue = some due9 ∧ Lapses (twinIn (fresh s) due9) s ∧ s.dev.pair.enabled = true ∧
      s.dev.pair.role = r) ∧
    (∃ s : State, Early s ∧ kwServed (arrive at1 (fresh s)) 15 = false) ∧
    (∃ (b : List Byte) (s : State), Early s ∧ Received tBeacon b s fun g e => g.src == twinAddr e && g.len == 5 &&
      decide (byteAt g.payload 4 < 4) && e.pair.enabled && e.pair.witness.contains ((kwPort e 15).getD 0)) ∧
    (∀ b : Bool, Case 0x0808 (fun h s => 64 ≤ (trim h).bufLen ∧ byteAt (trim h).buf 0 = 1 ∧
      pairBufFault (trim h).buf (fresh s) = none ∧ 64 + 4 * (wordAt (trim h).buf 0xC).toNat = (trim h).bufLen ∧
      s.dev.pair.enabled = b ∧ s.dev.pe.plan = some plan0 ∧ plan0.pair = true ∧
      sharedFault (trim h).buf (fresh s) = none)) := by
  refine ⟨⟨rope false 1 0, rfl⟩, ⟨rope true 1 0, at0 up, rfl, rfl, ?_, rfl⟩, ⟨rope true 2 0, paired {}, rfl, rfl, ?_, by decide +kernel⟩,
    ⟨rope true 1 0, paired { role := 2, linkUp := true }, rfl, rfl, ?_, by decide +kernel⟩,
    fun n h => ⟨rope true 1 n, paired { role := 3, linkUp := true }, rfl, rfl, ?_, rfl, rfl, rfl, rfl, by revert n; decide +kernel, rfl⟩,
    ⟨rope true 1 0, claiming (paired { role := 3, linkUp := true }), rfl, rfl, ?_, by decide +kernel⟩, ⟨at0 up, rfl, rfl, rfl⟩,
    fun r h => ⟨paired { role := r, linkUp := true, linkDue := some due9, witnessDue := some ⟨0#32, 10#16⟩ }, rfl, ?_, rfl, rfl, rfl, ?_⟩,
    ⟨paired { role := 3, linkUp := true, linkDue := some due9 }, rfl, ?_, rfl, by decide +kernel⟩, ⟨at0 up, rfl⟩,
    ⟨paired { role := 2, linkUp := true }, by decide +kernel⟩, fun r h => ⟨paired { role := r }, rfl, rfl, rfl, rfl⟩,
    fun r h => ⟨paired { role := r, heardDue := some due9 }, rfl, ?_, rfl, rfl, rfl⟩,
    fun r h => ⟨paired { role := r, searchDue := some due9 }, rfl, ?_, rfl, rfl⟩, ⟨at0 up, ?_, by decide +kernel⟩,
    ⟨twinBeacon, paired { role := 2 }, ?_, by unfold Received; decide +kernel⟩,
    fun b => ⟨pairing, host 0x0808 pairing { unpaired with pair := { enabled := b } },
      ready_of (by cases b <;> decide +kernel), by cases b <;> decide +kernel⟩⟩
  all_goals first
    | (unfold Early NoneDue; decide +kernel)
    | (unfold Lapses NoneDue; decide +kernel)
    | (unfold Lapses NoneDue; revert r; decide +kernel)
    | (revert r; decide +kernel)

/-- A unit under test. -/
def testing (u : Nat) (x : UnitTest) : State := at0 { up with integ := { tests := [(u, x)] } }
def zoneA : Nat := unitZone .a

theorem witness_UnitTests :
    (∃ w : Word, unitKnown w.toNat = false) ∧
    (∃ w : Word, unitKnown w.toNat = true ∧ unitClass w.toNat ≠ 1 ∧ unitClass w.toNat ≠ 4) ∧
    (∃ w : Word, unitKnown w.toNat = true ∧ unitClass w.toNat = 1) ∧
    (∃ w : Word, unitKnown w.toNat = true ∧ unitClass w.toNat = 4) ∧
    (∃ (w : Word) (s : State), Tab.find s.dev.integ.tests w.toNat = none) ∧
    (∀ retest : Bool, ∃ (w : Word) (x : UnitTest) (c : Cluster) (s : State), Tab.find s.dev.integ.tests w.toNat = some x ∧
      w.toNat = unitZone c ∧ x.slot = none ∧ x.console = false ∧ x.reinstate = none ∧ x.retest = retest ∧ x.byError = false) :=
  ⟨⟨0x010000C0#32, by decide⟩, ⟨0x02000007#32, by decide⟩, ⟨0x010000BF#32, by decide⟩,
    ⟨0x04000000#32, by unfold unitKnown; cases Config.dram2GiB <;> decide⟩, ⟨0x03000000#32, at0 up, rfl⟩,
    fun r => ⟨wd zoneA, { blankTest with retest := r }, .a, testing zoneA { blankTest with retest := r },
      by cases r <;> decide +kernel⟩⟩

/-- A command that names the operation in slot 15, which `lop0` was begun with. -/
def onLop : HostCmd := { cmd with tag := 8#32, target := 7#32 }
def inLop (l : LongOp) : Dev := { up with lop := { slots := [(15, l)] } }

/-- All sixteen slots run. -/
def fullLops : Dev := { up with lop := { slots := (List.range 16).map fun k => (k, { lop0 0x0110 1 with cmd := { cmd with tag := wd (k + 8) } }) } }

/-- An operation a command may start, in a slot and refused for want of one. -/
def StartCase (op : Nat) (p : HostCmd → State → Prop) : Prop :=
  Case op (fun c s => lopRefused op (trim c) (fresh s) = none ∧ slotToTake s.dev = some 0 ∧ p c s) ∧
  Case op (fun c s => (lopRefused op (trim c) (fresh s)).isSome ∧ p c s)

theorem start {op : Nat} {p : HostCmd → State → Prop} (c : HostCmd) (d e : Dev)
    (h : readyB op c (host op c d) = true ∧ lopRefused op (trim c) (fresh (host op c d)) = none ∧ slotToTake d = some 0 ∧
      p c (host op c d))
    (g : readyB op c (host op c e) = true ∧ (lopRefused op (trim c) (fresh (host op c e))).isSome ∧ p c (host op c e)) :
    StartCase op p :=
  ⟨case c d h.1 h.2, case c e g.1 g.2⟩

def onTrunk : HostCmd := room { cmd with target := 23#32, count := 16#32 } 256
def inTrunk (d : Dev) : Dev := { trunk15 [] with lop := d.lop, th := d.th }

/-- Thermal level 6, at which every operation but SELF_TEST is turned away. -/
def hot : Dev := { up with th := { level := 6 } }
def zonedHot (d : Dev) : Dev := { d with zones := { zones := [(15, zone0 true false true)] } }

theorem witness_LongOperations :
    (∀ op ∈ [4, 5, 6, 7], Case op (fun c s => findLop c s.dev = none)) ∧
    (∀ st ∈ [1, 2, 3, 4], Case 0x0004 (fun c s => findLop c s.dev = some (15, lop0 0x0110 st))) ∧
    (∀ st ∈ [1, 3], Case 0x0005 (fun c s => findLop c s.dev = some (15, lop0 0x0110 st))) ∧
    (∀ st ∈ [1, 3, 4], Case 0x0006 (fun c s => findLop c s.dev = some (15, lop0 0x0110 st) ∧ (lop0 0x0110 st).cancel = false)) ∧
    (∀ st ∈ [1, 3, 4], Case 0x0007 (fun c s => findLop c s.dev = some (15, lop0 0x0110 st))) ∧
    (∃ (i : Fin 16) (s : State), lopAt s.dev i.val = none) ∧
    (∀ st ∈ [1, 2, 3, 4], ∃ (i : Fin 16) (s : State), lopAt s.dev i.val = some (lop0 0x0110 st)) ∧
    (∃ (i : Fin 16) (l : LongOp) (s : State), lopAt s.dev i.val = some l ∧ l.st = 1 ∧ l.pos ≠ 1 ∧ l.opcode = 0x0906 ∧
      l.cancel = false ∧ l.suspendBy = none ∧ coreRuns s.dev = true ∧ l.items + 4096 + 1 = l.total) ∧
    StartCase 0x0110 (fun c _ => 40 * c.count.toNat = (trim c).bufLen ∧ c.count ≠ 0#32) ∧
    StartCase 0x0111 (fun c _ => c.target.toNat < 0x500000 ∧ c.target.toNat + c.count.toNat = 0x500000 ∧
      32 * c.count.toNat = (trim c).bufLen) ∧
    StartCase 0x0A03 (fun c _ => c.target.toNat < 1048576 ∧ c.target.toNat + c.count.toNat = 1048576 ∧ bit c.p0 0 = true) ∧
    StartCase 0x0A03 (fun c s => c.target.toNat < 1048576 ∧ c.target.toNat + c.count.toNat = 1048576 ∧
      bit c.p0 0 = false ∧ 16 * rangeSamples c s.dev ≤ (trim c).bufLen) ∧
    (∀ n ∈ [2, 28], StartCase 0x0306 (fun c s => c.p0.toNat = n ∧ between 2 28 c.p0.toNat = true ∧
      c.target.toNat = 15 ∧ c.count.toNat = 1 ∧ (zoneAt s.dev 15).isSome = true)) ∧
    StartCase 0x0503 (fun c s => calNames c = [0, 3] ∧ ∀ k ∈ calNames c, retired s.dev (unitAdc k) = false ∧
      ownerOf s.dev (resCal k) = none) ∧
    StartCase 0x0606 (fun c s => c.target.toNat < 24 ∧ kwTrunkOf s.dev c.target.toNat = some 15 ∧
      16 * c.count.toNat = (trim c).bufLen ∧ (trunkOf s.dev 15).scan = none) ∧
    Case 0x0703 (fun _ s => s.dev.nvm.scanDone = false) ∧ StartCase 0x0703 (fun _ s => s.dev.nvm.scanDone = true) ∧
    StartCase 0x0803 (fun c s => c.target ≠ all1 ∧ unitKnown c.target.toNat = true ∧ retired s.dev c.target.toNat = false) ∧
    StartCase 0x0803 (fun c _ => c.target = all1) ∧ StartCase 0x0906 (fun c _ => (trim c).bufLen = 1) :=
  ⟨fun op h => case onLop up (by revert op; decide +kernel) (by revert op; decide +kernel),
    fun st h => case onLop (inLop (lop0 0x0110 st)) (by revert st; decide +kernel) (by revert st; decide +kernel),
    fun st h => case onLop (inLop (lop0 0x0110 st)) (by revert st; decide +kernel) (by revert st; decide +kernel),
    fun st h => case onLop (inLop (lop0 0x0110 st)) (by revert st; decide +kernel) (by revert st; decide +kernel),
    fun st h => case onLop (inLop (lop0 0x0110 st)) (by revert st; decide +kernel) (by revert st; decide +kernel),
    ⟨15, at0 up, rfl⟩, fun st h => ⟨15, at0 (inLop (lop0 0x0110 st)), rfl⟩,
    ⟨15, { lop0 0x0906 1 with items := 4095 }, at0 (inLop { lop0 0x0906 1 with items := 4095 }), by decide +kernel⟩,
    start (room { cmd with count := 2#32 } 80) up hot (by decide +kernel) (by decide +kernel),
    start (room { cmd with target := 0x4FFFFF#32, count := 1#32 } 32) up fullLops (by decide +kernel) (by decide +kernel),
    start { cmd with target := 1048575#32, count := 1#32, p0 := 1#32 } up hot (by decide +kernel) (by decide +kernel),
    start (room { cmd with target := 1048575#32, count := 1#32 } 16) (logging 0) { logging 0 with th := hot.th }
      (by decide +kernel) (by decide +kernel),
    fun n h => start { cmd with target := 15#32, count := 1#32, p0 := wd n } (zonedHot up) (zonedHot hot) (by revert n; decide +kernel)
      (by revert n; decide +kernel),
    start { cmd with p0 := 9#32 } up hot (by decide +kernel) (by decide +kernel),
    start onTrunk (inTrunk up) (inTrunk hot) (by decide +kernel) (by decide +kernel),
    case cmd { up with nvm := {} } (by decide +kernel) rfl,
    start cmd up { up with lop := { autoCompact := true } } (by decide +kernel) (by decide +kernel),
    start { cmd with target := 0x010000BF#32 } up fullLops (by decide +kernel) (by decide +kernel),
    start { cmd with target := all1 } up (inLop (lop0 0x0803 4)) (by decide +kernel) (by decide +kernel),
    start (room cmd 1) up (inLop { lop0 0x0906 1 with cmd := onLop }) (by decide +kernel) (by decide +kernel)⟩

/-- Core power is off. -/
def coreOff : Dev := { up with power := { up.power with coreUp := false } }
/-- A round in which all sixteen sensors and T_D read the same. -/
def allRead (v : Word) : List (Option Word) := List.replicate 17 (some v)
def inTh (t : Thermal) : State := at0 { up with th := t }
def inLk (l : LockKeeper) : State := at0 { up with lk := l }

theorem witness_LockKeeper :
    (∃ s : State, coreRuns s.dev = false) ∧ (∃ s : State, coreRuns s.dev = true) ∧
    (∃ (temps : List (Option Word)) (s : State), coreRuns s.dev = true ∧ (readTemps temps s.dev.th).1.t = F32.ofNat 115) ∧
    (∃ (temps : List (Option Word)) (s : State), coreRuns s.dev = true ∧
      F32.gt (readTemps temps s.dev.th).1.t (F32.ofNat 125) = true ∧ s.dev.th.level = 6) ∧
    (∀ l ∈ [4, 5], ∃ (temps : List (Option Word)) (s : State), coreRuns s.dev = true ∧
      F32.gt (readTemps temps s.dev.th).1.t (F32.ofNat 125) = false ∧
      F32.gt (readTemps temps s.dev.th).1.t (F32.ofNat 115) = true ∧ s.dev.th.level = l) ∧
    (∀ n ∈ [0, 1, 2], ∃ s : State, F32.lt s.dev.th.t (F32.ofNat 110) = true ∧ s.dev.th.hold = false ∧
      throttleFloor s.dev.th = (if n < 2 then 0 else 4) ∧ s.dev.th.level = throttleFloor s.dev.th + 1) ∧
    (∃ s : State, s.dev.th.t = F32.ofNat 110 ∧ F32.lt s.dev.th.t (F32.ofNat 110) = false) ∧
    (∃ s : State, s.dev.th.hold = true) ∧ (∃ s : State, s.dev.th.level = 4 ∧ throttleFloor s.dev.th = 4) ∧
    (∀ b : Bool, ∃ (n : Fin 16) (s : State), Nat.testBit s.dev.th.failed n.val = b) ∧
    (∀ b : Bool, ∃ s : State, s.dev.th.tdSuspect = b) ∧
    (∀ b : Bool, ∃ (k : Fin 12) (s : State), Tab.get false s.dev.lk.railOut k.val = b) ∧
    (∃ s : State, coreRuns s.dev = true ∧ s.dev.hif.enabled = true ∧ s.dev.lk.hostAbsent = false) ∧
    (∀ p ∈ [0, 1], Case 0x0804 (fun c _ => c.p0 = wd p ∧ 32 * c.count.toNat = (trim c).bufLen)) ∧
    Case 0x0805 (fun c _ => 192 = (trim c).bufLen) ∧
    (∀ b : Bool, ∃ s : State, coreRuns s.dev = true ∧ s.dev.lk.pfw = b) ∧
    (∃ s : State, s.dev.lk.pfw = false) ∧ (∃ s : State, s.dev.lk.pfw = true ∧ s.dev.lk.pfi = true) ∧
    (∀ b : Bool, ∃ s : State, coreRuns s.dev = true ∧ s.dev.lk.pfw = true ∧ s.dev.lk.pfi = false ∧ s.dev.lk.brownout = b) :=
  ⟨⟨at0 coreOff, rfl⟩, ⟨at0 up, rfl⟩, ⟨allRead (F32.ofNat 115), at0 up, by decide +kernel⟩,
    ⟨allRead (F32.ofNat 126), inTh { level := 6 }, by decide +kernel⟩,
    fun l h => ⟨allRead (F32.ofNat 125), inTh { level := l }, by revert l; decide +kernel⟩,
    fun n h => ⟨inTh { t := F32.rat 1099 10, failed := 2 ^ n - 1, level := if n < 2 then 1 else 5 }, by revert n; decide +kernel⟩,
    ⟨inTh { t := F32.ofNat 110 }, by decide +kernel⟩, ⟨inTh { hold := true }, rfl⟩,
    ⟨inTh { failed := 0x8001, level := 4 }, by decide +kernel⟩,
    fun b => ⟨15, inTh { failed := if b then 0x8000 else 0x7FFF }, by cases b <;> decide⟩, fun b => ⟨inTh { tdSuspect := b }, rfl⟩,
    fun b => ⟨11, inLk { railOut := [(11, b)] }, rfl⟩, ⟨inLk { hostAbsent := false }, by decide⟩,
    fun p h => case (room { cmd with count := 2#32, p0 := wd p } 64) up (by revert p; decide +kernel) ⟨rfl, rfl⟩,
    case (room cmd 192) up (by decide +kernel) rfl, fun b => ⟨inLk { pfw := b }, rfl, rfl⟩, ⟨at0 up, rfl⟩,
    ⟨inLk { pfw := true, pfi := true }, rfl, rfl⟩, fun b => ⟨inLk { pfw := true, brownout := b }, rfl, rfl, rfl, rfl⟩⟩

/-- The device in this power state. -/
def inPower (p : Power) : State := at0 { up with power := p }
def waiting : Power := { pendingCause := some 1, booted := false }

theorem witness_PowerAndResets :
    (∃ s : State, s.dev.power.booted = true) ∧ (∃ s : State, coreRuns s.dev = false) ∧
    (∃ s : State, s.dev.power.booted = false ∧ coreRuns s.dev = true ∧ (chooseSlot (fresh s)).1 = none) ∧
    (∃ s : State, s.dev.power.booted = false ∧ coreRuns s.dev = true ∧ (chooseSlot (fresh s)).1 = some 0 ∧
      imageAt (chooseSlot (fresh s)).2.2 0 5 = none) ∧
    (∃ s : State, s.dev.power.coreUp = false) ∧ (∃ s : State, s.dev.power.shutdown = true) ∧
    (∃ s : State, s.dev.power.resetLow = true) ∧
    (∀ b : Bool, ∃ s : State, s.dev.power.coreUp = true ∧ s.dev.power.shutdown = false ∧ s.dev.power.resetLow = false ∧
      s.dev.tb.refRuns = b) ∧
    (∀ b : Bool, ∃ s : State, s.dev.power.wdExpired = true ∧ s.dev.tb.refRuns = b) ∧
    (∃ s : State, s.dev.power.wdExpired = false) ∧
    (∀ b : Bool, ∃ s : State, s.dev.power.shutdown = false ∧ s.dev.power.resetLow = b) ∧
    (∀ b : Bool, ∃ k : Fin 12, coreRail k.val = b) ∧
    (∃ (v : Word) (s : State), bit v 1 = true ∧ fld v 31 24 = 0x5A ∧ s.dev.sec.hostResetOk = true) ∧
    (∃ v : Word, bit v 1 = true ∧ fld v 31 24 = 0x5B) ∧
    (∃ (v : Word) (s : State), bit v 1 = true ∧ fld v 31 24 = 0x5A ∧ s.dev.sec.hostResetOk = false) :=
  ⟨⟨at0 up, rfl⟩, ⟨at0 coreOff, rfl⟩, ⟨at0 { up with power := waiting, sec := { factory := false } }, by decide +kernel⟩,
    ⟨inPower waiting, by decide +kernel⟩, ⟨at0 coreOff, rfl⟩, ⟨inPower { shutdown := true }, rfl⟩,
    ⟨inPower { resetLow := true }, rfl⟩, fun b => ⟨at0 { up with tb := { refRuns := b } }, rfl, rfl, rfl, rfl⟩,
    fun b => ⟨at0 { up with power := { wdExpired := true }, tb := { refRuns := b } }, rfl, rfl⟩, ⟨at0 up, rfl⟩,
    fun b => ⟨inPower { resetLow := b }, rfl, rfl⟩, fun b => ⟨if b then 0 else 11, by cases b <;> decide⟩,
    ⟨0x5A000002#32, at0 { up with sec := { hostResetOk := true } }, by decide⟩, ⟨0x5B000002#32, by decide⟩,
    ⟨0x5A000002#32, at0 up, by decide⟩⟩

def inNvm (n : Nvm) : Dev := { up with nvm := n }
def copy1 : Copy := { seq := 1, payload := [1#8] }
def progRun (n : Nvm) (step2 : Bool) : State := at0 (inNvm { n with scanDone := true, running := some (.record 1023 [1#8] none), step2 := step2 })
/-- A record store with no free page left. -/
def crammed : Nvm := { scanDone := true, sectorUsed := (List.range 256).map fun k => (k, 16) }
def onRec : HostCmd := { cmd with target := 1023#32 }

/-- `idle` of the statement: the controller takes the next operation at once. -/
def NvmIdle (s : State) : Prop := nvmFree s.dev.nvm = true ∧ s.dev.nvm.queue = []

theorem witness_NvmCommands :
    (∀ op ∈ [0x0701, 0x0702, 0x0704, 0x0705], Case op (fun _ s => s.dev.nvm.scanDone = false)) ∧
    Case 0x0701 (fun c s => s.dev.nvm.scanDone = true ∧ c.target.toNat = 1023 ∧ 240 = (trim c).bufLen ∧
      copiesOf s.dev.nvm c.target.toNat = []) ∧
    Case 0x0701 (fun c s => s.dev.nvm.scanDone = true ∧ c.target.toNat = 1023 ∧ 240 = (trim c).bufLen ∧
      newestCopy (copiesOf s.dev.nvm c.target.toNat) = some copy1 ∧
      inConflict (copiesOf s.dev.nvm c.target.toNat) = false ∧ copy1.bad = false) ∧
    (∀ n ∈ [1, 240], Case 0x0702 (fun c s => NvmIdle s ∧ c.target.toNat = 1023 ∧ (trim c).bufLen = n ∧
      writePoint s.dev.nvm = some 0)) ∧
    Case 0x0704 (fun c s => s.dev.nvm.scanDone = true ∧ c.target.toNat = 127) ∧
    Case 0x0705 (fun c s => s.dev.nvm.scanDone = true ∧ c.target.toNat = 63) ∧
    (∀ n ∈ [64, 127], Case 0x0705 (fun c s => NvmIdle s ∧ c.target.toNat = n)) ∧
    (∃ s : State, s.dev.nvm.running = some (.record 1023 [1#8] none) ∧ s.dev.nvm.step2 = false) ∧
    (∃ s : State, s.dev.nvm.running = some (.record 1023 [1#8] none) ∧ s.dev.nvm.step2 = true ∧
      (takePage { s.dev.nvm with running := none, step2 := false }).map Prod.fst = some 0) ∧
    (∃ s : State, s.dev.nvm.erasePaused = true) ∧ (∃ s : State, s.dev.nvm.erasing = none) ∧
    (∃ s : State, s.dev.nvm.erasing = some 128 ∧ s.dev.nvm.erasePaused = false) ∧
    (∀ b : Bool, ∃ s : State, s.dev.nvm.scanDone = b) ∧ (∃ s : State, 410 ≤ freePages s.dev.nvm) ∧
    (∃ s : State, freePages s.dev.nvm < 410 ∧ s.dev.nvm.compacting = false ∧ s.dev.nvm.hold = false ∧
      (s.dev.lop.slots.any fun p => p.2.opcode == 0x0703 && p.2.st != 4) = false) ∧
    (∀ n ∈ [0, 253], ∃ v : Word, fld v 23 16 = n ∧ (fld v 23 16 = 0 ∨ 252 < fld v 23 16)) ∧
    (∀ n ∈ [1, 252], ∃ (v : Word) (s : State), NvmIdle s ∧ fld v 23 16 = n ∧ fld v 10 0 = 2047 ∧
      (rawPage s.dev.nvm (fld v 10 0)).all (· == 0xFF#8) = true) ∧
    (∃ (v : Word) (s : State), NvmIdle s ∧ fld v 23 16 = 252 ∧ (rawPage s.dev.nvm (fld v 10 0)).all (· == 0xFF#8) = false) ∧
    (∃ (v : Word) (s : State), nvmFree s.dev.nvm = false ∧ fld v 23 16 = 252) ∧ (∃ s : State, NvmIdle s) :=
  ⟨fun op h => case cmd (inNvm {}) (by revert op; decide +kernel) rfl,
    case (room onRec 240) up (by decide +kernel) (by decide +kernel),
    case (room onRec 240) (inNvm { scanDone := true, records := [(1023, [copy1])] }) (by decide +kernel) (by decide +kernel),
    fun n h => case (room onRec n) up (by revert n; decide +kernel) (by unfold NvmIdle; revert n; decide +kernel),
    case { cmd with target := 127#32 } up (by decide +kernel) (by decide),
    case { cmd with target := 63#32 } up (by decide +kernel) (by decide),
    fun n h => case { cmd with target := wd n } up (by revert n; decide +kernel) (by unfold NvmIdle; revert n; decide +kernel),
    ⟨progRun {} false, rfl, rfl⟩, ⟨progRun {} true, by decide +kernel⟩, ⟨at0 (inNvm { erasePaused := true }), rfl⟩, ⟨at0 up, rfl⟩,
    ⟨at0 (inNvm { erasing := some 128 }), rfl, rfl⟩, fun b => ⟨at0 (inNvm { scanDone := b }), rfl⟩,
    ⟨at0 up, by decide +kernel⟩, ⟨at0 (inNvm crammed), by decide +kernel⟩,
    fun n h => ⟨setFld 0#32 23 16 n, by revert n; decide +kernel⟩,
    fun n h => ⟨setFld 0x7FF#32 23 16 n, at0 up, by unfold NvmIdle; revert n; decide +kernel⟩,
    ⟨0xFC0000#32, at0 (inNvm { scanDone := true, rawPages := [(0, [0#8])] }), by unfold NvmIdle; decide +kernel⟩,
    ⟨0xFC0000#32, at0 (inNvm {}), by decide +kernel⟩, ⟨at0 up, by unfold NvmIdle; decide +kernel⟩⟩

def inSec (x : Security) : Dev := { up with sec := x }
/-- A key with every permission. -/
def key0 : OpKey := { pub := List.replicate 64 1#8, mask := 63, highest := 0 }
def session0 : Session := { key := [], opKey := 15, limit := 3600, lastUse := 0, highest := 0, seen := [] }
def onSlot (n : Nat) : HostCmd := { cmd with target := wd n }
def keyBuf (b : Byte) : HostCmd := withBytes (onSlot 15) (List.replicate 64 b ++ [0x3F#8, 0#8, 0#8, 0#8])
def envelope (ws : List Word) : HostCmd := withWords on8191 ws
def planBuf (ws : List Word) : HostCmd := withWords cmd (ws ++ [crc32c (wordsBytes ws)])
def noPlan : Dev := { up with pe := {} }

/-- What an opaque primitive answers is not evaluated: those clauses of the statement are one for each of its answers. -/
theorem witness_Security :
    Case 0x0901 (fun c _ => c.target.toNat = 16) ∧
    (∀ n ∈ [1, 3600], Case 0x0901 (fun c s => c.target.toNat = 15 ∧ fld c.p0 11 0 = n ∧ 256 = (trim c).bufLen ∧
      Tab.find s.dev.sec.keys c.target.toNat = none)) ∧
    (∀ n ∈ [1, 3600], Case 0x0901 (fun c s => c.target.toNat = 15 ∧ fld c.p0 11 0 = n ∧ 256 = (trim c).bufLen ∧
      Tab.find s.dev.sec.keys c.target.toNat = some key0 ∧ freeSession s.dev = some 0)) ∧
    Case 0x0901 (fun c s => c.target.toNat = 15 ∧ fld c.p0 11 0 = 1 ∧ 256 = (trim c).bufLen ∧
      Tab.find s.dev.sec.keys c.target.toNat = some key0 ∧ freeSession s.dev = none) ∧
    Case 0x0902 (fun c s => c.target.toNat = 7 ∧ Tab.find s.dev.sec.sessions c.target.toNat = none) ∧
    Case 0x0902 (fun c s => c.target.toNat = 7 ∧ Tab.find s.dev.sec.sessions c.target.toNat ≠ none) ∧
    (∀ last : Bool, Case 0x0903 (fun c s => c.target.toNat = 15 ∧ 68 = (trim c).bufLen ∧
      ((trim c).buf.take 64).all (· == 0#8) = true ∧ lastKeys s.dev c.target.toNat = last)) ∧
    Case 0x0903 (fun c _ => c.target.toNat = 15 ∧ 68 = (trim c).bufLen ∧ ((trim c).buf.take 64).all (· == 0#8) = false ∧
      inMask (wordAt (trim c).buf 64) permMask = true) ∧
    (∀ k ∈ [none, some (List.replicate 96 1#8)], Case 0x0903 (fun c s => c.target.toNat = 0x100 ∧ 96 = (trim c).bufLen ∧
      s.dev.sec.oemKey = k)) ∧
    (∀ n ∈ [1, 2048], Case 0x0903 (fun c _ => c.target.toNat = 0x202 ∧ n = (trim c).bufLen)) ∧
    Case 0x0904 (fun c s => recOf s.dev c.target.toNat = some plain ∧ 16 = (trim c).bufLen ∧
      envelopeFault c.target.toNat (trim c).buf = none ∧ F32.isZero (wordAt (trim c).buf 0) = true ∧
      F32.isZero (wordAt (trim c).buf 4) = true ∧ F32.isZero (wordAt (trim c).buf 8) = true) ∧
    Case 0x0904 (fun c s => recOf s.dev c.target.toNat = some plain ∧ 16 = (trim c).bufLen ∧
      envelopeFault c.target.toNat (trim c).buf = some 0) ∧
    Case 0x0904 (fun c s => recOf s.dev c.target.toNat = some plain ∧ 16 = (trim c).bufLen ∧
      envelopeFault c.target.toNat (trim c).buf = none ∧ F32.isZero (wordAt (trim c).buf 0) = false ∧
      (Tab.find s.dev.sec.envelopes c.target.toNat ≠ none ∨ s.dev.sec.envelopes.length < 4096) ∧
      failValue s.dev c.target.toNat = none ∧ commandable plain = false) ∧
    Case 0x0905 (fun c _ => c.target = 0#32 ∧ 256 = (trim c).bufLen) ∧
    Case 0x0905 (fun c _ => c.target = 1#32 ∧ (Config.certChain.take 2048).length ≤ (trim c).bufLen) ∧ Case 0x0905 (fun c _ => c.target.toNat = 2) ∧
    (∀ b : Bool, Case 0x0907 (fun c s => c.target.toNat = s.dev.sec.active ∧ s.dev.sec.trial = b)) ∧
    (∀ b : Bool, Case 0x0907 (fun c s => c.target.toNat = 1 ∧ c.target.toNat ≠ s.dev.sec.active ∧
      slotValid s.dev c.target.toNat = b)) ∧
    Case 0x0907 (fun c s => c.target.toNat = 2 ∧ c.target.toNat ≠ s.dev.sec.active) ∧
    (∃ s : State, s.dev.power.booted = false) ∧
    (∀ b : Bool, ∃ s : State, s.dev.power.booted = true ∧ s.dev.sec.trial = b) ∧
    Case 0x0807 (fun _ s => s.dev.pe.plan ≠ none) ∧
    (∀ b : Bool, Case 0x0807 (fun c s => s.dev.pe.plan = none ∧ 32 = (trim c).bufLen ∧ (planRefused (trim c).buf).isSome = b)) :=
  ⟨case (onSlot 16) up (by decide +kernel) (by decide +kernel),
    fun n h => case (room { onSlot 15 with p0 := wd n } 256) up (by revert n; decide +kernel) (by revert n; decide +kernel),
    fun n h => case (room { onSlot 15 with p0 := wd n } 256) (inSec { keys := [(15, key0)] }) (by revert n; decide +kernel)
      (by revert n; decide +kernel),
    case (room { onSlot 15 with p0 := 1#32 } 256)
      (inSec { keys := [(15, key0)], sessions := (List.range 8).map fun k => (k, session0) }) (by decide +kernel) (by decide +kernel),
    case (onSlot 7) up (by decide +kernel) (by decide +kernel),
    case (onSlot 7) (inSec { sessions := [(7, session0)] }) (by decide +kernel) (by decide +kernel),
    fun b => case (keyBuf 0#8) (inSec { keys := if b then [(15, key0)] else [(14, key0), (15, key0)] })
      (by cases b <;> decide +kernel) (by cases b <;> decide +kernel),
    case (keyBuf 1#8) up (by decide +kernel) (by decide +kernel),
    fun k hk => by
      simp only [List.mem_cons, List.not_mem_nil, or_false] at hk
      obtain rfl | rfl := hk
      · exact case (room (onSlot 0x100) 96) up (by decide +kernel) (by decide +kernel)
      · exact case (room (onSlot 0x100) 96) (inSec { oemKey := some (List.replicate 96 1#8) }) (by decide +kernel) (by decide +kernel),
    case_all (fun n => room (onSlot 0x202) n) up (by decide +kernel),
    case (envelope [0#32, 0#32, 0#32, 0#32]) points (by decide +kernel) (by decide +kernel),
    case (envelope [F32.ofNat 2, F32.one, 0#32, 0#32]) points (by decide +kernel) (by decide +kernel),
    case (envelope [F32.one, F32.one, 0#32, 0#32]) points (by decide +kernel) (by decide +kernel),
    case (room cmd 256) up (by decide +kernel) (by decide +kernel),
    case (room (onSlot 1) 2048) up (by decide +kernel)
      ⟨by decide, Nat.le_trans (List.length_take_le _ _) (by decide +kernel : 2048 ≤ (trim (room (onSlot 1) 2048)).bufLen)⟩,
    case (onSlot 2) up (by decide +kernel) (by decide),
    fun b => case (onSlot 1) (inSec { active := 1, trial := b }) (by cases b <;> decide +kernel) (by cases b <;> decide +kernel),
    fun b => case (onSlot 1) (inSec { bValid := b }) (by cases b <;> decide +kernel) (by cases b <;> decide +kernel),
    case (onSlot 2) up (by decide +kernel) (by decide +kernel), ⟨inPower waiting, rfl⟩,
    fun b => ⟨at0 (inSec { trial := b }), rfl, rfl⟩, case cmd up (by decide +kernel) (by decide),
    fun b => case (if b then room cmd 32 else planBuf [1#32, 0#32, 88#32, 0#32, 1#32, 0#32, 0#32]) noPlan
      (by cases b <;> decide +kernel) (by unfold planRefused usableMib; cases Config.dram2GiB <;> cases b <;> decide +kernel)⟩

def onReg (t : Word) : HostCmd := { cmd with target := t }

theorem witness_Registers :
    (∀ op ∈ [0x0801, 0x0802], ∀ k ∈ [1, 2, 3], Case op (fun c _ => c.target.toNat % 4 = k)) ∧
    Case 0x0801 (fun c s => c.target.toNat % 4 = 0 ∧ (readReg .reg c.target.toNat (fresh s)).isSome = true) ∧
    Case 0x0801 (fun c s => c.target.toNat % 4 = 0 ∧ readReg .reg c.target.toNat (fresh s) = none) ∧
    Case 0x0802 (fun c _ => c.target.toNat % 4 = 0 ∧ c.target.toNat / 0x100000 = 0x19) ∧
    Case 0x0802 (fun c s => c.target.toNat % 4 = 0 ∧ c.target.toNat / 0x100000 ≠ 0x19 ∧
      viewReg .reg c.target.toNat (fresh s) ≠ none ∧
      (match releaseCheck (regResources c.target.toNat) ownHost (fresh s) with | some (.busy _ _) => true | _ => false) = true) ∧
    (∀ b : Bool, Case 0x0802 (fun c _ => c.target = 0x01000024#32 ∧ c.p1 = if b then 0xFFFFFFFF#32 else 0#32)) ∧
    (∃ a : Word, a.toNat % 4 ≠ 0) ∧
    (∃ (a : Word) (p : Path) (s : State), releaseCheck (regResources a.toNat) (pathOwner p) (fresh s) ≠ none) ∧
    (∃ (p : Path) (a : Word) (s : State), viewReg p a.toNat (fresh s) = none ∧ a ≠ 0x01100008#32) ∧
    (∃ s : State, s.dev.pair.enabled = false) :=
  ⟨fun op h k g => case (onReg (wd k)) up (by revert op k; decide +kernel) (by revert k; decide),
    case (onReg 0x01000024#32) up (by decide +kernel) (by decide +kernel),
    case (onReg 0x0FFFFFFC#32) up (by decide +kernel) (by decide +kernel),
    case (onReg 0x01900000#32) up (by decide +kernel) (by decide),
    case (onReg 0x01200100#32) { up with out := { owners := [(resSlot 0 0, srcLk)] } } (by decide +kernel) (by decide +kernel),
    fun b => case { onReg 0x01000024#32 with p1 := if b then 0xFFFFFFFF#32 else 0#32 } up (by cases b <;> decide +kernel) ⟨rfl, rfl⟩, ⟨1#32, by decide⟩,
    ⟨0x01200100#32, .lk, at0 { up with out := { owners := [(resSlot 0 0, 3#32)] } }, by decide +kernel⟩,
    ⟨.lk, 0x0FFFFFFC#32, at0 up, by decide +kernel⟩, ⟨at0 up, rfl⟩⟩

def inTow (t : Towpath) (x : Security) : State := at0 { up with tow := t, sec := x }

/-- The console answers and no enrolment is under way. -/
def Ready1 (s : State) : Prop := consoleOn s.dev = true ∧ s.dev.tow.enroll = none
def secret0 : List Byte := List.replicate 32 7#8
def halfKey (n : Nat) : List Byte := List.replicate n 1#8

/-- The token and the confirmation code rest on opaque primitives: the witnesses name them and do not evaluate them. -/
theorem witness_TowpathReportsAndAccess :
    (∃ s : State, consoleOn s.dev = false) ∧ (∃ s : State, consoleOn s.dev = true ∧ s.dev.tow.enroll ≠ none) ∧
    (∃ s : State, Ready1 s) ∧ (∃ s : State, Ready1 s ∧ s.dev.pe.plan = none) ∧
    (∃ (id : Word) (s : State), Ready1 s ∧ s.dev.pe.plan ≠ none ∧ recOf s.dev id.toNat = none) ∧
    (∃ (id : Word) (s : State), Ready1 s ∧ s.dev.pe.plan ≠ none ∧ recOf s.dev id.toNat = some plain ∧
      checkOk id.toNat plain = true) ∧
    (∃ s : State, Ready1 s ∧ s.dev.sec.techSecret = none) ∧
    (∀ b : Bool, ∃ s : State, Ready1 s ∧ s.dev.sec.techSecret = some secret0 ∧ s.dev.tow.blocked = b) ∧
    (∀ b : Bool, ∃ (w : List Word) (i code : Nat) (s : State), Ready1 s ∧ s.dev.sec.techSecret = some secret0 ∧
      s.dev.tow.blocked = false ∧ s.dev.tow.challenge = some (w, 1, i) ∧
      if b then code = tokenOf secret0 w 1 else code ≠ tokenOf secret0 w 1) ∧
    (∀ n ∈ [1, 2], ∃ (w : List Word) (l i code : Nat) (s : State), Ready1 s ∧ s.dev.sec.techSecret = some secret0 ∧
      s.dev.tow.blocked = false ∧ s.dev.tow.challenge = some (w, l, i) ∧ code ≠ tokenOf secret0 w l ∧ s.dev.tow.wrongRun = n) ∧
    (∀ n ∈ [1, 2], ∃ s : State, Ready1 s ∧ s.dev.sec.techSecret = some secret0 ∧ s.dev.tow.services = [] ∧ s.dev.sec.debug = n) ∧
    (∃ s : State, Ready1 s ∧ s.dev.sec.debug = 0 ∧ s.dev.sec.keys = []) ∧ (∃ s : State, Ready1 s ∧ s.dev.sec.debug ≠ 0) ∧
    (∀ n ∈ [0, 32], ∃ (half : List Byte) (s : State), consoleOn s.dev = true ∧ s.dev.tow.enroll = some (halfKey n) ∧
      half.length = 16 ∧ (halfKey n).length < 48) ∧
    (∃ (half : List Byte) (s : State), consoleOn s.dev = true ∧ s.dev.tow.enroll = some (halfKey 48) ∧ half.length = 16 ∧
      (halfKey 48).length = 48) ∧
    (∀ b : Bool, ∃ (code i : Nat) (s : State), consoleOn s.dev = true ∧ s.dev.tow.enroll = some (halfKey 64) ∧
      s.dev.tow.confirmAt = some i ∧ (halfKey 64).length = 64 ∧
      if b then code = confirmCode (halfKey 64) else code ≠ confirmCode (halfKey 64)) ∧
    (∃ s : State, s.dev.tow.enroll = none) ∧ (∃ s : State, s.dev.tow.enroll ≠ none) ∧
    (∀ n ∈ [1, 2], ∃ s : State, s.dev.tow.services = [] ∧ s.dev.sec.debug = n) :=
  ⟨⟨at0 coreOff, rfl⟩, ⟨inTow { enroll := some [] } {}, by decide⟩, ⟨at0 up, rfl, rfl⟩, ⟨at0 noPlan, ⟨rfl, rfl⟩, rfl⟩,
    ⟨8191#32, at0 up, ⟨rfl, rfl⟩, by decide, by decide +kernel⟩, ⟨8191#32, at0 points, ⟨rfl, rfl⟩, by decide, by decide +kernel⟩,
    ⟨at0 up, ⟨rfl, rfl⟩, rfl⟩, fun b => ⟨inTow { blocked := b } { techSecret := some secret0 }, ⟨rfl, rfl⟩, rfl, rfl⟩,
    fun b => match b with
      | true => ⟨[], 0, _, inTow { challenge := some ([], 1, 0) } { techSecret := some secret0 }, ⟨rfl, rfl⟩, rfl, rfl, rfl, rfl⟩
      | false => ⟨[], 0, _, inTow { challenge := some ([], 1, 0) } { techSecret := some secret0 }, ⟨rfl, rfl⟩, rfl, rfl, rfl,
          Nat.succ_ne_self _⟩,
    fun n h => ⟨[], 2, 0, _, inTow { challenge := some ([], 2, 0), wrongRun := n } { techSecret := some secret0 }, ⟨rfl, rfl⟩, rfl, rfl,
      rfl, Nat.succ_ne_self _, rfl⟩,
    fun n h => ⟨inTow {} { techSecret := some secret0, debug := n }, ⟨rfl, rfl⟩, rfl, rfl, rfl⟩, ⟨at0 up, ⟨rfl, rfl⟩, rfl, rfl⟩,
    ⟨inTow {} { debug := 1 }, ⟨rfl, rfl⟩, by decide⟩,
    fun n h => ⟨halfKey 16, inTow { enroll := some (halfKey n) } {}, rfl, rfl, rfl, by revert n; decide⟩,
    ⟨halfKey 16, inTow { enroll := some (halfKey 48) } {}, rfl, rfl, rfl, rfl⟩,
    fun b => match b with
      | true => ⟨_, 0, inTow { enroll := some (halfKey 64), confirmAt := some 0 } {}, rfl, rfl, rfl, rfl, rfl⟩
      | false => ⟨_, 0, inTow { enroll := some (halfKey 64), confirmAt := some 0 } {}, rfl, rfl, rfl, rfl, Nat.succ_ne_self _⟩,
    ⟨at0 up, rfl⟩, ⟨inTow { enroll := some [] } {}, by decide⟩, fun n h => ⟨inTow {} { debug := n }, rfl, rfl⟩⟩

/-- A Service command is allowed: debug is open, or technician access is. -/
def Allowed (s : State) : Prop := Ready1 s ∧ (s.dev.sec.debug = 0 ∨ s.dev.tow.tech = true)

def Works (s : State) : Prop :=
  s.dev.pe.plan ≠ none ∧ s.dev.link.coreLost = false ∧ s.dev.pe.p0 = true ∧ s.dev.pe.testing = false ∧
  s.dev.tow.services.length < 16

/-- The point write of a Service command, on a device. -/
def putOf (id : Nat) (v : Word) (d : Dev) : Option StageRes × Option Done × Dev :=
  consolePoint id (.write v qGood none 1) (holdService id (heard d))

def Accepted (x : Option StageRes × Option Done × Dev) : Bool := x.1 == some .accepted && x.2.1.isNone

/-- Fifteen service writes are held. -/
def serving (d : Dev) : Dev := { d with tow := { services := List.replicate 15 1 }, sec := { debug := 1 } }

def techOn (d : Dev) : Dev := { d with tow := { d.tow with tech := true } }

def coilOff : State := at0 (techOn (serving (normal 47 (inChan { cfg := 1#32, imax := F32.one }))))

theorem witness_TowpathService :
    (∃ s : State, Ready1 s ∧ s.dev.sec.debug ≠ 0 ∧ s.dev.tow.tech = false) ∧
    (∀ b : Bool, ∃ s : State, Allowed s ∧ s.dev.tow.tech = b ∧ s.dev.pe.plan = none) ∧
    (∃ s : State, Allowed s ∧ s.dev.pe.plan ≠ none ∧ s.dev.link.coreLost = true) ∧
    (∃ (a : Fin 16) (v : Word) (s : State), Allowed s ∧ Works s ∧ Accepted (putOf (aoId a.val) v (fresh s)) = true) ∧
    (∃ (a : Fin 16) (v : Word) (s : State), Allowed s ∧ Works s ∧ Accepted (putOf (tgId a.val) v (fresh s)) = true) ∧
    (∃ (g : Fin 8) (v : Word) (s : State), Allowed s ∧ Works s ∧ Accepted (putOf (fanId g.val) v (fresh s)) = true) ∧
    (∃ (ch : Fin 48) (ma : Nat) (s : State), Allowed s ∧ testX (chanOf s.dev ch.val) ma = none) ∧
    (∀ n ∈ [500, 1000], ∃ (ch : Fin 48) (ma : Nat) (s : State), ma = n ∧ Allowed s ∧ Works s ∧
      ((testX (chanOf s.dev ch.val) ma).any fun x =>
        let y := putOf (predefBase + coilPoint ch.val 0) x { fresh s with tow := { s.dev.tow with coilWait := some (ch.val, false) } }
        Accepted y && y.2.2.tow.coilWait == some (ch.val, true)) = true) ∧
    (∃ (o : OutRef) (s : State), Allowed s ∧ s.dev.tow.services.contains (outPoint o) = false) ∧
    (∃ (o : OutRef) (s : State), Allowed s ∧ s.dev.tow.services.contains (outPoint o) = true ∧ pipesServe s.dev = true ∧
      (consolePoint (outPoint o) (.relinquish 1) (dropService (outPoint o) (heard (fresh s)))).2.1.isNone = true) ∧
    (∃ (w : Word) (s : State), Allowed s ∧ unitKnown w.toNat = false) ∧
    (∃ (w : Word) (s : State), Allowed s ∧ unitKnown w.toNat = true ∧ retired s.dev w.toNat = false) ∧
    (∀ n ∈ [1, 2, 3], ∃ (v : Word) (s : State), Ready1 s ∧ v.toNat % 4 = n) ∧
    (∃ (v : Word) (s : State), Ready1 s ∧ v.toNat % 4 = 0 ∧ debugOpen s.dev = false) ∧
    (∀ b : Bool, ∃ (v : Word) (s : State), Ready1 s ∧ v.toNat % 4 = 0 ∧ debugOpen s.dev = b ∧ readOnlyReg v.toNat = !b ∧
      (readReg .towpath v.toNat (heard (fresh s))).isSome = true) ∧
    (∃ (v w m : Word) (s : State), Ready1 s ∧ v.toNat % 4 = 0 ∧ debugOpen s.dev = true ∧
      (guardedWrite .towpath srcLk v.toNat w m (heard (fresh s))).1 = okWith 5#32) ∧
    (∃ s : State, Ready1 s ∧ s.dev.link.coreLost = true) ∧
    (∀ k ∈ [1, 4], ∃ (n : Fin 48) (s : State), Ready1 s ∧ s.dev.link.coreLost = false ∧ uiMode (uiOf s.dev n.val) = k ∧
      retired s.dev (unitAdc (uiAdc n.val)) = false ∧
      (requestUrgent (uiAdc n.val) (.readNow n.val none) (heard (fresh s))).isSome = true) ∧
    (∃ s : State, Ready1 s ∧ s.dev.link.coreLost = false) ∧ (∃ s : State, Ready1 s ∧ claimCheck [resAtb] srcLk s.dev = none) ∧
    (∃ (x : Word) (s : State), Ready1 s ∧ ownerOf s.dev resAtb = some x ∧ x ≠ srcLk) ∧
    (∀ b : Bool, ∃ (rate : Nat) (s : State), Ready1 s ∧ baudRates.contains rate = b) ∧
    (∀ b : Bool, ∃ s : State, s.dev.tow.baudPending = b) := by
  refine ⟨⟨inTow {} { debug := 1 }, by unfold Ready1; decide⟩, fun b => ⟨at0 { noPlan with tow := { tech := b }, sec := { debug := if b then 1 else 0 } }, by unfold Allowed Ready1; cases b <;> decide⟩,
    ⟨at0 { up with link := { coreLost := true } }, by unfold Allowed Ready1; decide⟩,
    ⟨15, F32.one, at0 (techOn (serving ao15)), by unfold Allowed Ready1; decide, by unfold Works; decide, by decide +kernel⟩,
    ⟨15, F32.one, at0 (techOn (serving (tg15 1#32 none))), by unfold Allowed Ready1; decide, by unfold Works; decide, by decide +kernel⟩,
    ⟨7, F32.one, at0 (techOn (serving fan7)), by unfold Allowed Ready1; decide, by unfold Works; decide, by decide +kernel⟩,
    ⟨47, 1001, coilOff, by unfold Allowed Ready1; decide, by decide +kernel⟩,
    fun n h => ⟨47, n, coilOff, rfl, by unfold Allowed Ready1; decide, by unfold Works; decide, by revert n; decide +kernel⟩,
    ⟨.fan 7, at0 up, by unfold Allowed Ready1; decide, by decide⟩,
    ⟨.fan 7, at0 { fan7 with tow := { services := [fanId 7] } }, by unfold Allowed Ready1; decide, by decide +kernel⟩,
    ⟨0x08000001#32, at0 up, by unfold Allowed Ready1; decide, by decide⟩,
    ⟨0x08000000#32, at0 up, by unfold Allowed Ready1; decide, by decide⟩,
    fun n h => ⟨wd n, at0 up, ⟨rfl, rfl⟩, by revert n; decide⟩, ⟨0#32, inTow {} { debug := 1 }, ⟨rfl, rfl⟩, rfl, rfl⟩,
    fun b => ⟨if b then 0x01000024#32 else 0x01000004#32, inTow {} { debug := if b then 0 else 1 }, ⟨rfl, rfl⟩, by cases b <;> decide +kernel⟩,
    ⟨0x01000024#32, 5#32, 0xFFFFFFFF#32, at0 up, ⟨rfl, rfl⟩, by decide +kernel⟩,
    ⟨at0 { up with link := { coreLost := true } }, ⟨rfl, rfl⟩, rfl⟩,
    fun k h => ⟨47, at0 (inUi 47 { cfg := wd k }), ⟨rfl, rfl⟩, by revert k; decide +kernel⟩,
    ⟨at0 up, ⟨rfl, rfl⟩, rfl⟩, ⟨at0 up, ⟨rfl, rfl⟩, by decide +kernel⟩,
    ⟨0x10000000#32, at0 { up with out := { owners := [(resAtb, 0x10000000#32)] } }, ⟨rfl, rfl⟩, by decide⟩,
    fun b => ⟨if b then 921600 else 115201, at0 up, ⟨rfl, rfl⟩, by cases b <;> decide⟩,
    fun b => ⟨inTow { baudPending := b } {}, rfl⟩⟩

/-! ## WellFormed refuses -/

theorem test_wf_point : Instr.wf (.staleTimeout 8388608) = false ∧ Instr.wf (.staleTimeout 8388607) = true := by decide
theorem test_wf_log : Instr.wf (.trendPeriodicSample 1048576) = false := by decide
theorem test_wf_fabric_loop : Instr.wf (.fabricLoopTick 524288) = false := by decide
theorem test_wf_loop : ∀ p ∈ [(true, 4096), (false, 524288)], Instr.wf (.loopOverrun ⟨p.1, p.2⟩) = false := by decide
theorem test_wf_zone : Instr.wf (.zoneSkipped 262144) = false := by decide
theorem test_wf_raw : ∀ r ∈ [-33554433, 33554432], Instr.wf (.sincWord 0 r none ⟨0#32, 0#16⟩) = false := by decide
theorem test_wf_bacnet : ∀ r ∈ [BacReq.writeValue 0 0 none 0 0, .writeValue 0 0 none 17 0, .writeValue 0 0 none 16 4194304,
    .writeOutOfService 0 0 true 4194304], Instr.wf (.bacnetRequest 0 r) = false := by decide
theorem test_wf_modbus : ∀ r ∈ [(⟨256, 0, 0, 0, []⟩ : ModReq), ⟨0, 256, 0, 0, []⟩, ⟨0, 0, 65536, 0, []⟩, ⟨0, 0, 0, 65536, []⟩],
    Instr.wf (.modbusServerRequest 0 r) = false := by decide
theorem test_wf_poll : Instr.wf (.modbusPollDue 1048576) = false ∧ Instr.wf (.modbusPollReply 0 [0, 0, 0] ⟨0#32, 0#16⟩) = false := by decide
theorem test_wf_kwela : Instr.wf (.command 0 65536) = false := by decide
theorem test_wf_token : Instr.wf (.towpathAuthToken 1099511627776) = false := by decide
theorem test_wf_confirm : Instr.wf (.towpathAuthConfirm 16777216) = false := by decide
theorem test_wf_key_line : ∀ n ∈ [15, 17], Instr.wf (.towpathEnrollKeyLine (halfKey n)) = false := by decide
theorem test_wf_housekeeping :
    Instr.wf (.housekeepingRound (List.replicate 16 none) (List.replicate 12 0) false) = false ∧
    Instr.wf (.housekeepingRound (List.replicate 17 none) (List.replicate 11 0) false) = false := by decide
theorem test_wf_descriptor : Instr.wf (.nop cmd) = true ∧
    ∀ c ∈ [{ cmd with fmt := 256 }, { cmd with authSlot := 256 }, { cmd with authSeq := 16777216 }, { cmd with authTag := [] },
      { cmd with bufAddr := 18446744073709551616 }, { cmd with bufLen := 4294967296 }, { cmd with buf := [0] }],
      Instr.wf (.nop c) = false := by decide

/-! ## Results worked out from the manual -/

/-- The device after one command. -/
def after1 (i : Instr) (s : State) : Dev :=
  match exec i s with
  | .next t => t.dev
  | _ => s.dev

/-- The digits 1 to 9 in ASCII. -/
def digits : List Byte := (List.range 9).map fun k => BitVec.ofNat 8 (49 + k)

/-- R308 gives this value. -/
theorem test_crc32c : crc32c digits = 0xE3069283#32 := by decide +kernel

/-- R48 gives this value for the point check's CRC. -/
theorem test_crc16 : crc16 digits = 0xD0DB#16 := by decide +kernel

/-- The example of R8: cluster B at HEALTH 200 and PREFERENCE 3 beats A's 0xC831. -/
theorem test_claim_wins :
    (let d := after1 (.heartbeat .b 1#16 ⟨0#32, 0#16⟩) (at0 { up with belay :=
        { cfg := 0x33#32, chosen := true, owner := 0xC831#16, ownerUnit := 1
          a := { live := true, started := true, claim := 0xC831#16, pref := 3 }, b := { started := true } } })
     (d.belay.b.claim, d.belay.owner)) = (0xC832#16, 0xC832#16) := by decide +kernel

/-- With B's HEALTH at 160 it holds 0xA032, and A wins. -/
theorem test_claim_loses :
    (let d := after1 (.heartbeat .b 1#16 ⟨0#32, 0#16⟩) (at0 { up with belay :=
        { cfg := 0x33#32, chosen := true, owner := 0xC831#16, ownerUnit := 1
          a := { live := true, started := true, claim := 0xC831#16, pref := 3 }, b := { started := true, health := 160 } } })
     (d.belay.b.claim, d.belay.owner)) = (0xA032#16, 0xC831#16) := by decide +kernel

/-- The example after R88: 24 slots and 6 constants, roped, take 1,920 bytes. -/
theorem test_program_size :
    progSize { prog0 with roped := true, slots := 24, consts := List.replicate 6 0#32 } = 1920 := by decide +kernel

/-- The example of the coil chapter: 2 A with 50 mΩ, 4 A with 25 mΩ. -/
theorem test_full_scale : ∀ p ∈ [(50, 2), (25, 4)],
    fullScale { cfg := setFld 0#32 31 22 p.1 } = F32.ofNat p.2 := by decide +kernel

/-- The examples of R253, in hundredths: 0x6270 is 23.00 °C, and 0x6DDD is 45.00 %RH. -/
theorem test_sensor_fields :
    (let b : Bus := { templates := [(0, [0#32, 0#32, 0#32, 0#32, 0x80000000#32, 0#32, F32.rat 25 10000, F32.ofInt (-40),
        0x82000000#32, 0#32, F32.rat 16 10000, 0#32])] }
     (List.range 2).map fun f => F32.round (F32.mul F32.hundred (sbValue b 0 f [0x62#8, 0x70#8, 0x6D#8, 0xDD#8]))) =
      [2300, 4500] := by decide +kernel

/-- R170, R171: the second after 23:59:59 on 28 February of year 24 is 29 February. -/
theorem test_leap_day :
    (after1 .rtcIncrement (inClk { now := { sec := 59, min := 59, hour := 23, day := 28, wday := 3, month := 2, year := 24 } })).clk.now =
      { sec := 0, min := 0, hour := 0, day := 29, wday := 4, month := 2, year := 24 } := by decide +kernel

/-- R18: a read of the angle latches the cycle it belongs to. -/
theorem test_angle_read :
    (after1 .tbAngleRead (at0 { up with tb := { angle := 49152#16, cycle := 1204117#32 } })).tb.snap = 1204117#32 := by decide +kernel

/-- R18: the cycle counter wraps. -/
theorem test_cycle_wraps :
    (after1 (.cycleBoundary 0#32) (at0 { up with tb := { cycle := 0xFFFFFFFF#32 } })).tb.cycle = 0#32 := by decide +kernel

/-- R344, R352, R360: NOP leaves one completion, and its descriptor is gone. -/
theorem test_nop :
    (let d := after1 (.nop cmd) (host 0 cmd up)
     (d.hif.fetched, (cqOf d 0).tail, Tab.get 0#8 d.hif.mem 0x11000)) = ([], 1, 7#8) := by decide +kernel

end Sys2Proof.Tests
end

section
/-! PROOFS. Points: the rank of quality codes (R46, R47), what the start of a unit's test keeps (R312–R315), and a write
whose check fails (R50). -/
namespace Sys2Proof.Machine

/-! ## Quality codes -/

theorem qRank_qWorst (a b : Nat) : qRank (qWorst a b) = max (qRank a) (qRank b) := by
  unfold qWorst
  split <;> omega

theorem qWorst_eq_or (a b : Nat) : qWorst a b = a ∨ qWorst a b = b := by
  unfold qWorst
  split
  · exact .inr rfl
  · exact .inl rfl

/-- R46 ranks its eight codes without a tie. -/
theorem qRank_injOn : ∀ a < 8, ∀ b < 8, qRank a = qRank b → a = b := by decide

/-- Settles O18: `qWorst` keeps the argument of the higher rank, and no two codes share one. -/
theorem worstQuality : Obligations.WorstQuality :=
  fun a b ha hb => ⟨qRank_qWorst a b, qWorst_eq_or a b, qRank_injOn a ha b hb⟩

/-! ## What the start of a test keeps -/

/-- What every pass keeps stands after the whole of them. -/
theorem forEach_keeps {α : Type} (P : Dev → Prop) (l : List α) {f : α → Dev → Dev} (h : ∀ a d, P d → P (f a d)) {d : Dev}
    (hd : P d) : P (forEach l f d) := by
  unfold forEach
  induction l generalizing d with
  | nil => exact hd
  | cons a l ih => exact ih (h a d hd)

/-- A view of the device that no pass changes is the same after the whole of them. -/
theorem forEach_view {α β : Type} (view : Dev → β) (l : List α) {f : α → Dev → Dev} (h : ∀ a d, view (f a d) = view d)
    (d : Dev) : view (forEach l f d) = view d :=
  forEach_keeps (fun e => view e = view d) l (fun a e he => (h a e).trans he) rfl

/-- The two parts of the device that an urgent request does not reach. -/
def enginesOf (d : Dev) : PointEngine × Integrity := (d.pe, d.integ)

theorem enginesOf_requestUrgent (c : Nat) (u : Urgent) (d : Dev) :
    enginesOf ((requestUrgent c u d).getD d) = enginesOf d := by
  unfold requestUrgent
  dsimp only
  split
  · rfl
  · rfl
  · split <;> rfl

theorem enginesOf_startDiag (ch : Nat) (d : Dev) : enginesOf (startDiag ch d) = enginesOf d := by
  unfold startDiag
  dsimp only
  split
  · rfl
  · exact forEach_view enginesOf _ (fun _ d => enginesOf_requestUrgent _ _ d) d

theorem enginesOf_holdCore (c : Nat) (d : Dev) : enginesOf (holdCore c d) = enginesOf d := rfl

/-- A dispatched test is listed for its unit (merged with one that runs already, R315) and the point records stand. -/
theorem dispatchTest_effect (u : Nat) (t : UnitTest) (d : Dev) :
    (dispatchTest u t d).pe.recs = d.pe.recs ∧
      ∃ m, (dispatchTest u t d).integ.tests = Tab.put d.integ.tests u m := by
  have listed {e : Dev} (h : enginesOf e =
      enginesOf { d with integ := { d.integ with tests := Tab.put d.integ.tests u t } }) :
      e.pe.recs = d.pe.recs ∧ ∃ m, e.integ.tests = Tab.put d.integ.tests u m := by
    obtain ⟨hpe, hinteg⟩ := Prod.mk.inj h
    exact ⟨by rw [hpe], t, by rw [hinteg]⟩
  unfold dispatchTest
  split
  · exact ⟨rfl, _, rfl⟩
  · dsimp only
    split
    · exact ⟨rfl, t, rfl⟩
    split
    · exact listed (enginesOf_requestUrgent _ _ _)
    split
    · exact listed (enginesOf_startDiag _ _)
    split
    · exact listed (enginesOf_holdCore _ _)
    · exact listed rfl

@[simp] theorem errorTest_recs (u : Nat) (d : Dev) : (errorTest u d).pe.recs = d.pe.recs := by
  unfold errorTest
  split
  · rfl
  · exact (dispatchTest_effect u _ d).1

@[simp] theorem retired_errorTest (u w : Nat) (d : Dev) : retired (errorTest u d) w = retired d w :=
  calm_field (retired · w) (fun _ => rfl) (calm_errorTest u d)

/-- A unit that serves is under test once an error has named it. -/
theorem testing_errorTest_same {u : Nat} {d : Dev} (h : retired d u = false) : testing (errorTest u d) u = true := by
  obtain ⟨m, hm⟩ := (dispatchTest_effect u { blankTest with byError := true } d).2
  simp [testing, errorTest, h, hm]

/-- A unit under test stays so when an error starts another test. -/
theorem testing_errorTest {u w : Nat} {d : Dev} (h : testing d w = true) : testing (errorTest u d) w = true := by
  unfold errorTest
  split
  · exact h
  · obtain ⟨m, hm⟩ := (dispatchTest_effect u { blankTest with byError := true } d).2
    by_cases hw : w = u
    · simp [testing, hm, hw]
    · rw [testing, hm, Tab.find_put_other _ _ hw]
      exact h

/-- Every serving unit of a list is under test once an error has named the list. -/
theorem testing_forEach_errorTest_of_mem {w : Nat} {l : List Nat} (hw : w ∈ l) {d : Dev} (h : retired d w = false) :
    testing (forEach l errorTest d) w = true := by
  induction l generalizing d with
  | nil => cases hw
  | cons u l ih =>
    change testing (forEach l errorTest (errorTest u d)) w = true
    rcases List.mem_cons.mp hw with rfl | hl
    · exact forEach_keeps (testing · w = true) l (fun _ _ => testing_errorTest) (testing_errorTest_same h)
    · exact ih hl (by rw [retired_errorTest, h])

/-! ## The path of a failed check -/

theorem recOf_congr {d e : Dev} (h : d.pe.recs = e.pe.recs) (id : Nat) : recOf d id = recOf e id := by
  rw [recOf, recOf, h]

theorem recOf_testSource (id m : Nat) (s : Word) (d : Dev) : recOf (testSource id s d) m = recOf d m :=
  recOf_congr (forEach_view (fun d => d.pe.recs) _ errorTest_recs d) m

theorem testing_testSource {id w : Nat} {s : Word} {d : Dev} (hw : w ∈ unitsOfSource d id s) (h : retired d w = false) :
    testing (testSource id s d) w = true := testing_forEach_errorTest_of_mem hw h

/-! ## A write that arrives with a check (R50) -/

section
variable {o : PointOp} {r : Rec} {v : Word} {q p : Nat} {k : Half} {d : Dev}

theorem commitOp_write_badCheck (hr : recOf d o.id = some r) (ha : o.act = .write v q (some k) p)
    (hk : k ≠ pointCheck o.id v q r.kind) : commitOp o d = (.checkFail, testSource o.id o.source d) := by
  simp [commitOp, hr, ha, hk]

theorem commitOp_write_goodCheck (hr : recOf d o.id = some r) (ha : o.act = .write v q (some k) p) (hq : q < 8)
    (hk : k = pointCheck o.id v q r.kind) :
    (commitOp o d).1 = (storeWrite o v q (some k) p r d).1 := by
  simp only [commitOp, hr, ha, hq, hk, decide_true, beq_self_eq_true, Bool.and_self, Bool.not_true, Bool.false_eq_true,
    if_false]
  split
  · next h => exact h.symm
  · rfl

/-- A write that has passed its check is stored or refused for another cause. -/
theorem storeWrite_ne_checkFail (chk : Option Half) : (storeWrite o v q chk p r d).1 ≠ .checkFail := by
  unfold storeWrite
  extract_lets
  split
  · nofun -- guarded (R56)
  split
  · nofun -- the field's write of an input out of service (R55)
  split
  · nofun -- a predefined point of another source (R39)
  split
  · nofun -- a host's value outside the range of its KIND (R45)
  split
  · split <;> nofun -- a sensor diverted to its zone (R150)
  split
  · nofun -- the envelope (R383)
  split
  · split
    · nofun -- no level, or the one kept for locks (R58, R60)
    · nofun -- a commandable point
  · nofun -- any other point

end

/-- Settles O20: a failing check makes the commit test the path of SOURCE alone, which keeps every record; no outcome of
a write past its check is CHECK_FAIL. -/
theorem failedCheckNotStored : Obligations.FailedCheckNotStored := by
  intro o r v q k p d hr ha
  refine ⟨fun hk => ?_, fun hq hk => ?_⟩
  · rw [commitOp_write_badCheck hr ha hk]
    exact ⟨rfl, rfl, fun id => recOf_testSource o.id id o.source d, fun u hu h => testing_testSource hu h⟩
  · rw [commitOp_write_goodCheck hr ha hq hk]
    exact storeWrite_ne_checkFail (some k)

end Sys2Proof.Machine
end

section
/-! PROOFS. Rtc: what the counting of a second and a write of a field make of the RTC's fields, and that nothing else on
the way touches them (R166, R167, R170, R171). -/
namespace Sys2Proof.Machine

/-! ## What leaves the fields alone -/

@[simp] theorem settle_now (d : Dev) : (settle d).clk.now = d.clk.now :=
  calm_field (fun d => d.clk.now) (fun _ => rfl) (calm_settle d)

@[simp] theorem timeEventQ_now (n : Nat) (w : Word) (d : Dev) : (timeEventQ n w d).clk.now = d.clk.now := by
  unfold timeEventQ
  split <;> rfl

@[simp] theorem refreshOdd_now (w : Word) (d : Dev) : (refreshOdd w d).clk.now = d.clk.now := by
  unfold refreshOdd
  dsimp only
  split
  · simp
  split <;> rfl

@[simp] theorem setSnap_now (p : Path) (f : RtcFields) (d : Dev) : (setSnap p f d).clk.now = d.clk.now := by
  cases p <;> rfl

@[simp] theorem fireAlarm_now (n : Nat) (d : Dev) : (fireAlarm n d).clk.now = d.clk.now := by
  unfold fireAlarm
  dsimp only
  rw [timeEventQ_now, setClk_clk]
  split <;> rfl

theorem ite_fireAlarm_now (b : Bool) (n : Nat) (d : Dev) :
    (if b then fireAlarm n d else d).clk.now = d.clk.now := by
  cases b
  · rfl
  · exact fireAlarm_now n d

@[simp] theorem alarmsAtIncrement_now (f : RtcFields) (d : Dev) : (alarmsAtIncrement f d).clk.now = d.clk.now := by
  unfold alarmsAtIncrement
  dsimp only
  rw [ite_fireAlarm_now, ite_fireAlarm_now]
  rfl

@[simp] theorem windowSecond_now (d : Dev) : (windowSecond d).clk.now = d.clk.now := by
  unfold windowSecond
  split
  · rfl
  split
  · rfl
  split <;> rfl

@[simp] theorem queueOp_clk (o : PointOp) (d : Dev) : (queueOp o d).clk = d.clk := by
  unfold queueOp
  split <;> rfl

@[simp] theorem schedWrite_clk (n : Nat) (x : Sched) (v : Word) (d : Dev) : (schedWrite n x v d).clk = d.clk :=
  queueOp_clk _ _

@[simp] theorem evalSched_clk (force : Bool) (n : Nat) (d : Dev) : (evalSched force n d).clk = d.clk := by
  unfold evalSched
  split
  · rfl
  dsimp only
  split
  · rfl
  split
  · rw [schedWrite_clk]; rfl
  · rfl

@[simp] theorem noteOffsets_now (d : Dev) : (noteOffsets d).clk.now = d.clk.now := by
  unfold noteOffsets
  dsimp only
  split
  · exact timeEventQ_now _ _ _
  · rfl

/-- A schedule's value reaches its target through the point engine's queue, never the clock. -/
@[simp] theorem evalScheds_now (force : Bool) (p : Sched → Bool) (d : Dev) :
    (evalScheds force p d).clk.now = d.clk.now := by
  unfold evalScheds
  split
  · rw [forEach_view (fun d => d.clk.now) _ (fun n d => by rw [evalSched_clk]), noteOffsets_now]
  · rfl

/-! ## A second, and a write of a field -/

theorem exec_rtcIncrement (s : State) : exec .rtcIncrement s = .next (after s (rtcIncrement (fresh s))) := rfl

theorem exec_rtcFieldWrite (p : Path) (x : RtcField) (v : Word) (s : State) :
    exec (.rtcFieldWrite p x v) s = .next (after s (settle (writeField p x v.toNat (fresh s)))) := rfl

/-- A running clock's increment counts its fields on by one second. -/
theorem rtcIncrement_now {d : Dev} (hon : clkOn d = true) (hrun : halted d = false) :
    (rtcIncrement d).clk.now = nextSec d.clk.now := by
  unfold rtcIncrement
  simp only [hon, hrun, Bool.not_true, Bool.false_eq_true, or_self, if_false, settle_now]
  split <;> simp

theorem writeField_now (p : Path) (x : RtcField) (v : Nat) (d : Dev) :
    (writeField p x v d).clk.now = if halted d then rtcPutField x v d.clk.now else d.clk.now := by
  unfold writeField
  cases halted d <;> simp

theorem rtcPutField_wday {x : RtcField} (hx : x ≠ .wday) (v : Nat) (f : RtcFields) :
    (rtcPutField x v f).wday = f.wday := by
  cases x
  case wday => exact absurd rfl hx
  all_goals rfl

/-! ## The end of a day -/

/-- R171 over every month that the field can hold. -/
theorem anyMonthLen_eq {y m : Nat} (hm : m < 16) :
    anyMonthLen y m = if m ∈ [1, 3, 5, 7, 8, 10, 12, 0, 13, 14, 15] then 31 else if m ∈ [4, 6, 9, 11] then 30
      else if y % 4 = 0 then 29 else 28 := by
  unfold anyMonthLen monthLen
  simp only [List.mem_cons, List.not_mem_nil, or_false]
  repeat' split
  all_goals omega

/-- At 23:59:59 every carry of R170 up to the day happens. -/
theorem nextSec_lastSecond {f : RtcFields} (hs : f.sec = 59) (hm : f.min = 59) (hh : f.hour = 23) :
    nextSec f = nextWday (nextDay { f with sec := 0, min := 0, hour := 0 }) := by
  simp [nextSec, nextMin, nextHour, hs, hm, hh]

/-- The day after: the month carries at its length and at day 31, the year after months 12 and 15. -/
theorem nextDay_eq (f : RtcFields) :
    let last := f.day = anyMonthLen f.year f.month ∨ f.day = 31
    let rolls := last ∧ (f.month = 12 ∨ f.month = 15)
    nextDay f = { f with
      day := if last then 1 else f.day + 1
      month := if rolls then 1 else if last then f.month + 1 else f.month
      year := if rolls then (if f.year = 255 then 0 else f.year + 1) else f.year } := by
  intro last rolls
  unfold nextDay nextMonth
  by_cases hl : last
  · by_cases hy : f.month = 12 ∨ f.month = 15 <;> simp [last, rolls, hl, hy]
  · simp [last, rolls, hl]

/-- Settles O34: the increment counts the fields on by `nextSec`, whose carries at the last second are those of R170 with
the lengths of R171; a field write puts its own field or none. -/
theorem monthLengths : Obligations.MonthLengths := by
  intro p x v s
  refine ⟨fun hon hrun hs hm hh hmon => ⟨_, exec_rtcIncrement s, ?_⟩, fun hx => ⟨_, exec_rtcFieldWrite p x v s, ?_⟩⟩
  · have hnow : (rtcIncrement (fresh s)).clk.now = nextSec s.dev.clk.now := rtcIncrement_now (d := fresh s) hon hrun
    rw [after_dev, hnow, nextSec_lastSecond hs hm hh, nextDay_eq, ← anyMonthLen_eq hmon]
    rfl
  · rw [after_dev, settle_now, writeField_now]
    split
    · exact rtcPutField_wday hx _ _
    · rfl

end Sys2Proof.Machine
end
